-- ==== Sys2Proof/Word.lean ====
section
/-! DEFINITION. The byte, the 4-byte register array and the request a host presents (spec/00_scope.md R11, spec/10_state.md). -/

namespace Sys2Proof

/-- A byte: an unsigned 8-bit value (R11). -/
abbrev Byte := BitVec 8

/-- A 4-byte register array such as `txbuf[0..3]`; as a sequence, `b0` is first on the wire (R11, R39). -/
structure Quad where
  b0 : Byte
  b1 : Byte
  b2 : Byte
  b3 : Byte
deriving DecidableEq, Repr

/-- What the request port carries: an address and an opcode byte, any 8 bits each (R15, R123). There is no checksum
among a request's inputs (R60). -/
structure Request where
  addr : Byte
  op   : Byte
deriving DecidableEq, Repr

end Sys2Proof
end

