-- ==== Sys2Proof/Config.lean ====
section
/-! DEFINITION. What an implementation fixes and the spec leaves open: the depth of the receive queue (spec/00_scope.md R8).
The reply timeout is an input of the block, so it stands in State (R31). -/

namespace Sys2Proof

/-- By how much `RXQ_DEPTH` exceeds its least value 4. A free value: the spec leaves the depth OPEN (R8, D6; log 9). -/
opaque Config.rxqDepthOverFour : Nat

/-- `RXQ_DEPTH`, "an open parameter and must be at least 4" (R8). -/
def Config.rxqDepth : Nat := Config.rxqDepthOverFour + 4

end Sys2Proof
end

