-- ==== Sys2Proof/Syntax.lean ====
section
/-! DEFINITION. The requests of spec/opcode_table.json, one constructor per row (spec/30_encoding.md R61, R68). -/

namespace Sys2Proof

/-- `SEND <OP>, addr`: a request with a legal opcode. The operand is the device address, any byte (R58, R66).
A request whose opcode byte is above 0x05 has no frame and no row (R55, R102): it is a `Request`, not an `Instr`. -/
inductive Instr where
  | off       (addr : Byte)   -- R96
  | on        (addr : Byte)   -- R97
  | offAck    (addr : Byte)   -- R98
  | onAck     (addr : Byte)   -- R99
  | negateAck (addr : Byte)   -- R100
  | queryAck  (addr : Byte)   -- R101
deriving DecidableEq, Repr

end Sys2Proof
end

