-- ==== Sys2Proof/WellFormed.lean ====
section
/-! DEFINITION. The checks on requests: which opcode bytes have a frame (spec/30_encoding.md R63), which addresses are the
caller's to use (spec/20_memory.md R46), and that the block itself checks no address (R66, C3). -/

namespace Sys2Proof

/-- The opcode byte is one of the six (R61); 0x06 to 0xFF are illegal (R63). -/
def Request.wellFormed (r : Request) : Bool := decide (r.op ≤ 0x05#8)

/-- The usable device addresses, 0x01 to 0xFD; 0x00, 0xFE and 0xFF are reserved (R46). The block does not check
this: it is the caller's duty (R138). -/
def usableAddr (a : Byte) : Bool := decide (0x01#8 ≤ a) && decide (a ≤ 0xFD#8)

/-- The caller's own range check on an instruction's address (R46, R138). -/
def Instr.callerValid : Instr → Bool
  | .off a       => usableAddr a
  | .on a        => usableAddr a
  | .offAck a    => usableAddr a
  | .onAck a     => usableAddr a
  | .negateAck a => usableAddr a
  | .queryAck a  => usableAddr a

/-- What the BLOCK asks of an instruction: nothing beyond its type. Its constructor is a legal opcode and every
address byte is legal in the frame format (R66, C3). -/
def Instr.wellFormed : Instr → Bool
  | .off _       => true
  | .on _        => true
  | .offAck _    => true
  | .onAck _     => true
  | .negateAck _ => true
  | .queryAck _  => true

end Sys2Proof
end

