-- ==== Sys2Proof/Decode.lean ====
section
/-! DEFINITION. The Frame Codec (spec/40_codec.md: CHECKSUM, ENCODE, DECODE), the map between requests and instructions
(spec/30_encoding.md R61), and the reading of an opcode-table word (R41, R55). -/

namespace Sys2Proof

/-- The bytes of an array in wire order, `b0` first (R11, R39). -/
def Quad.toList (q : Quad) : List Byte := [q.b0, q.b1, q.b2, q.b3]

/-- `BEGIN`, byte 0 of every frame (R10, R57). -/
def beginCode : Byte := 0xA0#8

/-- CHECKSUM(a, o): the 10-bit sum of the three bytes, its bits 7:0 kept (R71). -/
def checksum (a o : Byte) : Byte :=
  (beginCode.setWidth 10 + a.setWidth 10 + o.setWidth 10).extractLsb' 0 8

/-- ENCODE(a, o): the wire frame, or `none` for the spec's REJECT when `o` is no opcode (R72). -/
def encodeRaw (a o : Byte) : Option Quad :=
  if 0x05#8 < o then none else some ⟨beginCode, a, o, checksum a o⟩

/-- Why DECODE finds a byte sequence malformed (R73, R110). -/
inductive Malformed where
  | length      -- `len(s) != 4`
  | badOpcode   -- byte 2 above 0x05
  | mismatch    -- the re-encoded frame differs from the input
deriving DecidableEq, Repr

/-- DECODE's answer: `OK(a, o)` or `MF(c)` (R73). -/
inductive Decoded where
  | ok (addr op : Byte)
  | mf (cause : Malformed)
deriving DecidableEq, Repr

/-- DECODE(s): the checks in the spec's order, length, opcode, then the byte-for-byte compare with the re-encoded
candidate (R73, R117). -/
def decodeBytes : List Byte → Decoded
  | [s0, s1, s2, s3] =>
    if 0x05#8 < s2 then .mf .badOpcode
    else if encodeRaw s1 s2 = some ⟨s0, s1, s2, s3⟩ then .ok s1 s2
    else .mf .mismatch
  | _ => .mf .length

/-- The instruction a request is, by its opcode byte; `none` for the bytes 0x06 to 0xFF (R61, R63). -/
def decodeRequest (a o : Byte) : Option Instr :=
  if o = 0x00#8 then some (.off a)
  else if o = 0x01#8 then some (.on a)
  else if o = 0x02#8 then some (.offAck a)
  else if o = 0x03#8 then some (.onAck a)
  else if o = 0x04#8 then some (.negateAck a)
  else if o = 0x05#8 then some (.queryAck a)
  else none

/-- The instruction whose frame a byte sequence is, or DECODE's cause for refusing it (R73). -/
def decode (s : List Byte) : Except Malformed Instr :=
  match decodeBytes s with
  | .mf c => .error c
  | .ok a o =>
    match decodeRequest a o with
    | some i => .ok i
    | none => .error .badOpcode

/-- The request an instruction presents: its address and the opcode byte of the opcode map (R61). -/
def Instr.request : Instr → Request
  | .off a       => ⟨a, 0x00#8⟩
  | .on a        => ⟨a, 0x01#8⟩
  | .offAck a    => ⟨a, 0x02#8⟩
  | .onAck a     => ⟨a, 0x03#8⟩
  | .negateAck a => ⟨a, 0x04#8⟩
  | .queryAck a  => ⟨a, 0x05#8⟩

/-- The encoder: an instruction's frame, the four bytes it sends (R55, R68). -/
def encode (i : Instr) : Quad :=
  ⟨beginCode, i.request.addr, i.request.op, checksum i.request.addr i.request.op⟩

/-- The word `W` of a frame, byte 0 in its most significant bits (R41). -/
def frameWord (q : Quad) : Nat :=
  q.b0.toNat * 2 ^ 24 + q.b1.toNat * 2 ^ 16 + q.b2.toNat * 2 ^ 8 + q.b3.toNat

/-- Byte `k` of the word `W` whose low `nbits` bits are given, the bits above them zero (R41). -/
def wordByte (nbits w k : Nat) : Byte := BitVec.ofNat 8 (w % 2 ^ nbits / 2 ^ (24 - 8 * k))

/-- The bytes of the word `W` in wire order, its most significant byte first (R41). -/
def wordBytes (nbits w : Nat) : List Byte := (List.range 4).map (wordByte nbits w)

/-- The instruction whose frame an opcode-table word is, by DECODE of its bytes: BEGIN and OP select the row, ADDR is the
operand, and CHK "must equal `(0xA0 + ADDR + OP) mod 256`" (R55, R62). A word of more than 4 bytes is no frame (R56). -/
def decodeWord (nbits w : Nat) : Except Malformed Instr :=
  if nbits ≤ 32 then decode (wordBytes nbits w) else .error .length

/-- The instruction of an opcode-table word, `none` where the decoder refuses the word (log 5). -/
def decodeTableWord (nbits w : Nat) : Option Instr :=
  match decodeWord nbits w with
  | .ok i => some i
  | .error _ => none

end Sys2Proof
end

