-- ==== Sys2Proof/Machine/State.lean ====
section
/-! DEFINITION. The machine's state (spec/10_state.md section 1), the events that move it (spec/41_session.md R80), the reasons a step
can stop, and the state right after reset (spec/70_reset_and_hazards.md R130). -/

namespace Sys2Proof.Machine

/-- One event, with the data its agent supplies (R80). -/
inductive Event where
  | req                    -- the host's request port: `REQ` of the request it presents (R84 to R86)
  | txAccept               -- the transport takes the byte the TX port shows (R87)
  | rxArrive (v : Byte)    -- the transport delivers a byte (R88)
  | rxTake                 -- the session takes a reply byte (R89)
  | tick                   -- one period of the time base (R92)
  | timeout                -- the reply timeout elapses (R93)
  | assertReset            -- the host raises `rst` (R129)
  | releaseReset           -- the host lets `rst` fall (R129)
  | driveCfg (t : Nat)     -- the host drives `cfg_t_reply` (R31, R131)
  | readStatus             -- the host reads the response registers (R125, R109)
deriving DecidableEq, Repr

/-- The machine stops with a fault. -/
inductive Fault where
  /-- Raised by every event of a block out of reset that finds `st = 3` (R17). Safe: the spec asks for it and no rule
  writes the value. -/
  | illegalSt
  /-- Raised by a host read of `rsp_status` that finds 6 or 7 (R109). Safe: the spec asks for it and no rule writes them. -/
  | reservedStatus
deriving DecidableEq, Repr

/-- The machine refuses what it is asked to do. -/
inductive Refusal where
  /-- An instruction whose meaning is still missing, by its mnemonic. Safe: the run stops. No arm of `exec` answers it. -/
  | notModelled (mnemonic : String)
  /-- Raised by a host that drives `cfg_t_reply` out of reset, which has "no defined effect" (R31; spec/93 row 13). Safe: the run
  stops (log 13). -/
  | cfgOutOfReset
deriving DecidableEq, Repr

/-- All the state of the block, and after it the model's own fields for the agents around it (log 2, 4, 9, 14). -/
structure State where
  st        : BitVec 2         -- R17
  reqAddr   : Byte             -- R19
  reqOp     : Byte             -- R19
  txbuf     : Quad             -- R20
  txi       : BitVec 3         -- R21
  rxbuf     : Quad             -- R24
  rxn       : BitVec 3         -- R24
  tmr       : Nat              -- R25, of TMR_W bits (log 8)
  rxq       : List Byte        -- R22, head first out
  rxqOvf    : Bool             -- R23
  rspValid  : Bool             -- R26
  rspStatus : BitVec 3         -- R27, R109
  rspCause  : BitVec 2         -- R28, R110
  rspAddr   : Byte             -- R29
  rspOp     : Byte             -- R29
  rspLen    : BitVec 3         -- R30
  rspBytes  : Quad             -- R30
  cfgTReply : Nat              -- R31, an input of TMR_W bits (log 8)
  rst       : Bool             -- R123, R129, the level of the reset input
  rxqDepth  : Nat              -- RXQ_DEPTH (R8), a parameter no step writes (log 9)
  requests  : List Request     -- what the host presents, in order, the head on the request port (log 4)
  turns     : List Event       -- the events to come, as the agents choose them (log 2)
  txStream  : List Byte        -- the bytes the transport has accepted (R38, R108; log 14)
deriving DecidableEq, Repr

/-- The machine right after reset (R129, R130). `cfgTReply` is not reset by the spec (log 7), `rxqDepth` is the free
parameter (log 9), and no agent has anything to do yet (log 6). -/
def State.reset : State where
  st        := 0#2      -- IDLE
  reqAddr   := 0x00#8
  reqOp     := 0x00#8
  txbuf     := ⟨0x00#8, 0x00#8, 0x00#8, 0x00#8⟩
  txi       := 0#3
  rxbuf     := ⟨0x00#8, 0x00#8, 0x00#8, 0x00#8⟩
  rxn       := 0#3
  tmr       := 0
  rxq       := []
  rxqOvf    := false
  rspValid  := false
  rspStatus := 0#3      -- NONE
  rspCause  := 0#2      -- NONE
  rspAddr   := 0x00#8
  rspOp     := 0x00#8
  rspLen    := 0#3
  rspBytes  := ⟨0x00#8, 0x00#8, 0x00#8, 0x00#8⟩
  cfgTReply := 0
  rst       := false
  rxqDepth  := Config.rxqDepth
  requests  := []
  turns     := []
  txStream  := []

end Sys2Proof.Machine
end

