-- ==== Sys2Proof/Machine/Flags.lean ====
section
/-! DEFINITION. The codes of `st`, `rsp_status` and `rsp_cause` and how they are computed (spec/10_state.md R17,
spec/60_exceptions.md R109, R110). -/

namespace Sys2Proof.Machine

abbrev stIdle : BitVec 2 := 0#2
abbrev stTx : BitVec 2 := 1#2
abbrev stRx : BitVec 2 := 2#2
/-- The value of `st` that no rule writes (R17). -/
abbrev stIllegal : BitVec 2 := 3#2

abbrev statusNone : BitVec 3 := 0#3
abbrev statusOkNoReply : BitVec 3 := 1#3
abbrev statusOkReply : BitVec 3 := 2#3
abbrev statusNoResponse : BitVec 3 := 3#3
abbrev statusMalformed : BitVec 3 := 4#3
abbrev statusInvalidOpcode : BitVec 3 := 5#3

abbrev causeNone : BitVec 2 := 0#2
abbrev causeLength : BitVec 2 := 1#2
abbrev causeBadOpcode : BitVec 2 := 2#2
abbrev causeMismatch : BitVec 2 := 3#2

/-- The codes 6 and 7, which have no meaning (R109). -/
def statusReserved (v : BitVec 3) : Bool := decide (5#3 < v)

/-- The cause code of a malformed reply (R110). -/
def causeCode : Malformed → BitVec 2
  | .length    => causeLength
  | .badOpcode => causeBadOpcode
  | .mismatch  => causeMismatch

end Sys2Proof.Machine
end

