-- ==== Sys2Proof/Machine/Operands.lean ====
section
/-! DEFINITION. Reading and writing byte arrays by index, the bytes of a response, and the class of an opcode
(spec/00_scope.md R13, spec/10_state.md R30, spec/30_encoding.md R61). -/

namespace Sys2Proof

/-- `buf[i]` (R13). An index above 3 is read as 3; no state a run reaches has one (log 15). -/
def Quad.get (q : Quad) (i : BitVec 3) : Byte :=
  if i = 0#3 then q.b0 else if i = 1#3 then q.b1 else if i = 2#3 then q.b2 else q.b3

/-- `buf[i] <- v` (R13). An index above 3 writes nothing; no state a run reaches has one (log 15). -/
def Quad.set (q : Quad) (i : BitVec 3) (v : Byte) : Quad :=
  if i = 0#3 then { q with b0 := v }
  else if i = 1#3 then { q with b1 := v }
  else if i = 2#3 then { q with b2 := v }
  else if i = 3#3 then { q with b3 := v }
  else q

/-- The first bytes of a sequence as an array, 0x00 where the sequence has ended (R30, R83). -/
def Quad.ofBytes (s : List Byte) : Quad :=
  ⟨s.getD 0 0x00#8, s.getD 1 0x00#8, s.getD 2 0x00#8, s.getD 3 0x00#8⟩

/-- `buf[0..n-1]` (R93). -/
def Quad.firstBytes (q : Quad) (n : BitVec 3) : List Byte := q.toList.take n.toNat

/-- The fire-and-forget opcodes, `Off` and `On`; the others of the six are ack-class (R61). -/
def fireAndForget (op : Byte) : Bool := decide (op = 0x00#8) || decide (op = 0x01#8)

end Sys2Proof
end

