-- ==== Sys2Proof/Machine/Ops.lean ====
section
/-! DEFINITION. The shared operations: the port outputs (spec/60_exceptions.md R123), the guard every event shares, the one way a
request ends (spec/41_session.md R83) and the error entry built on it (R14, R118), accepting and holding a request (R84, R86), and the reset of the
registers (spec/70_reset_and_hazards.md R130). -/

namespace Sys2Proof.Machine

/-- `req_ready`: `st = IDLE` and not in reset (R123). -/
def State.reqReady (s : State) : Bool := !s.rst && decide (s.st = stIdle)

/-- `tx_valid`: `st = TX` and not in reset (R21, R129). -/
def State.txValid (s : State) : Bool := !s.rst && decide (s.st = stTx)

/-- `tx_data = txbuf[txi]` (R21). -/
def State.txData (s : State) : Byte := s.txbuf.get s.txi

/-- What every event but reset shares: in reset it does not happen (R129), and a block that finds `st = 3` faults
(R17; log 10). -/
def whenLive (f : State → State) (s : State) : Host.Outcome State Fault Refusal :=
  if s.rst = true then .next s
  else if s.st = stIllegal then .fault .illegalSt
  else .next (f s)

/-- `complete(status, cause, a, o, n, s)`, the one way a request ends; `n` is the length of the bytes (R83). -/
def complete (status : BitVec 3) (cause : BitVec 2) (a o : Byte) (bytes : List Byte) (s : State) : State :=
  { s with
    rspStatus := status
    rspCause := cause
    rspAddr := a
    rspOp := o
    rspLen := BitVec.ofNat 3 bytes.length
    rspBytes := Quad.ofBytes bytes
    rspValid := true
    st := stIdle
    txi := 0#3
    rxn := 0#3
    tmr := 0 }

/-- `raise E(cause)`: taking an error, the block's analogue of a trap entry (R14, R118). It saves the status, the cause and
the bytes read in the response registers and goes back to `IDLE`. There is no return instruction (R119): the next
request is accepted as usual. -/
def raiseError (status : BitVec 3) (cause : BitVec 2) (bytes : List Byte) (s : State) : State :=
  complete status cause 0x00#8 0x00#8 bytes s

/-- The accepted request starts sending its frame (R84). -/
def acceptRequest (a o : Byte) (frame : Quad) (s : State) : State :=
  { s with
    rspValid := false
    reqAddr := a
    reqOp := o
    txbuf := frame
    txi := 0#3
    st := stTx }

/-- A request the block does not take stays on the request port: the host holds it until `st = IDLE` (R86; log 4). -/
def holdRequest (a o : Byte) (s : State) : State :=
  { s with requests := ⟨a, o⟩ :: s.requests }

/-- `REQ(a, o)` in `IDLE`: ENCODE's frame is accepted (R84), its REJECT completes `INVALID_OPCODE` (R85). -/
def takeRequest (a o : Byte) (s : State) : State :=
  match encodeRaw a o with
  | some frame => acceptRequest a o frame s
  | none => raiseError statusInvalidOpcode causeNone [] s

/-- `REQ(a, o)` as the host presents it: taken when `req_ready`, held otherwise (R84, R85, R86). -/
def request (a o : Byte) (s : State) : Host.Outcome State Fault Refusal :=
  if s.reqReady = true then .next (takeRequest a o s)
  else if s.rst = false ∧ s.st = stIllegal then .fault .illegalSt
  else .next (holdRequest a o s)

/-- Every register at its reset value (R130). `cfg_t_reply` is an input and is not reset; the parameter, the agents'
plans and the record of bytes sent are no registers of the block. -/
def resetRegisters (s : State) : State :=
  { State.reset with
    cfgTReply := s.cfgTReply
    rst := s.rst
    rxqDepth := s.rxqDepth
    requests := s.requests
    turns := s.turns
    txStream := s.txStream }

end Sys2Proof.Machine
end

