-- ==== Sys2Proof/Machine/Control.lean ====
section
/-! DEFINITION. The host's inputs besides requests: reset (spec/70_reset_and_hazards.md R129), the timeout input
(spec/10_state.md R31) and reads of the response registers (spec/60_exceptions.md R109, R125). -/

namespace Sys2Proof.Machine

/-- `rst` rises: a request in flight is abandoned without a completion, every register takes its reset value, and
nothing but reset's own inputs has an effect while it is held (R129; log 12). -/
def assertReset (s : State) : State := { resetRegisters s with rst := true }

/-- `rst` falls: every register holds its reset value (R129). A line that is not raised cannot fall. -/
def releaseReset (s : State) : State :=
  if s.rst = true then { resetRegisters s with rst := false } else s

/-- The host drives `cfg_t_reply`, which it may do in reset only (R31, R125; log 13). -/
def driveCfg (t : Nat) (s : State) : Host.Outcome State Fault Refusal :=
  if s.rst = true then .next { s with cfgTReply := t } else .refused .cfgOutOfReset

/-- The host reads the response registers: no effect, and a fault on a status no rule writes (R109, R125; log 11). -/
def readStatus (s : State) : Host.Outcome State Fault Refusal :=
  if statusReserved s.rspStatus = true then .fault .reservedStatus else .next s

end Sys2Proof.Machine
end

