-- ==== Sys2Proof/Machine/AckClass.lean ====
section
/-! DEFINITION. The ack-class requests OFFACK, ONACK, NEGATEACK and QUERYACK (spec/41_session.md R98 to R101, spec/90_conflicts.md C2): the event
`REQ` that starts each; sending and the reply are in Machine/Transmit.lean and Machine/Receive.lean (R81; log 1). -/

namespace Sys2Proof.Machine

/-- `SEND OFFACK, addr`: `REQ(addr, 0x02)` (R98). -/
def execOffAck (addr : Byte) (s : State) : Host.Outcome State Fault Refusal := request addr 0x02#8 s

/-- `SEND ONACK, addr`: `REQ(addr, 0x03)` (R99). -/
def execOnAck (addr : Byte) (s : State) : Host.Outcome State Fault Refusal := request addr 0x03#8 s

/-- `SEND NEGATEACK, addr`: `REQ(addr, 0x04)` (R100). -/
def execNegateAck (addr : Byte) (s : State) : Host.Outcome State Fault Refusal := request addr 0x04#8 s

/-- `SEND QUERYACK, addr`: `REQ(addr, 0x05)` (R101). -/
def execQueryAck (addr : Byte) (s : State) : Host.Outcome State Fault Refusal := request addr 0x05#8 s

end Sys2Proof.Machine
end

