-- ==== Sys2Proof/Machine/FireAndForget.lean ====
section
/-! DEFINITION. The fire-and-forget requests OFF and ON (spec/41_session.md R96, R97): the event `REQ` that starts each; the four
`TX_ACCEPT` events that follow are in Machine/Transmit.lean (R81; log 1). -/

namespace Sys2Proof.Machine

/-- `SEND OFF, addr`: `REQ(addr, 0x00)` (R96). -/
def execOff (addr : Byte) (s : State) : Host.Outcome State Fault Refusal := request addr 0x00#8 s

/-- `SEND ON, addr`: `REQ(addr, 0x01)` (R97). -/
def execOn (addr : Byte) (s : State) : Host.Outcome State Fault Refusal := request addr 0x01#8 s

end Sys2Proof.Machine
end

