-- ==== Sys2Proof/Machine/Dispatch.lean ====
section
/-! DEFINITION. One arm per instruction of spec/opcode_table.json. -/

namespace Sys2Proof.Machine

def exec (i : Instr) (s : State) : Host.Outcome State Fault Refusal :=
  match i with
  | .off addr => Sys2Proof.Machine.execOff addr s
  | .on addr => Sys2Proof.Machine.execOn addr s
  | .offAck addr => Sys2Proof.Machine.execOffAck addr s
  | .onAck addr => Sys2Proof.Machine.execOnAck addr s
  | .negateAck addr => Sys2Proof.Machine.execNegateAck addr s
  | .queryAck addr => Sys2Proof.Machine.execQueryAck addr s

end Sys2Proof.Machine
end

