-- ==== Sys2Proof/Machine/Receive.lean ====
section
/-! DEFINITION. The events `RX_ARRIVE` and `RX_TAKE`, with `DECODE_DONE` inside the latter (spec/41_session.md R88, R89, R90). -/

namespace Sys2Proof.Machine

/-- `RX_ARRIVE(v)`: queued in every state, or lost with the sticky overflow bit set (R88, R23). -/
def rxArrive (v : Byte) (s : State) : State :=
  if s.rxq.length < s.rxqDepth then { s with rxq := s.rxq ++ [v] } else { s with rxqOvf := true }

/-- `DECODE_DONE(s)`: the four bytes taken, decoded; the reply is not compared with the request (R90, R91). -/
def decodeDone (bytes : List Byte) (s : State) : State :=
  match decodeBytes bytes with
  | .ok a o => complete statusOkReply causeNone a o bytes s
  | .mf c => raiseError statusMalformed (causeCode c) bytes s

/-- The session takes byte `v` from the head of the queue, leaving `rest` (R89). -/
def takeByte (v : Byte) (rest : List Byte) (s : State) : State :=
  let taken := { s with rxq := rest, rxbuf := s.rxbuf.set s.rxn v }
  if s.rxn < 3#3 then { taken with rxn := s.rxn + 1#3 }
  else decodeDone [s.rxbuf.b0, s.rxbuf.b1, s.rxbuf.b2, v] taken

/-- The guard of `RX_TAKE`: `st = RX` and `rxq` not empty (R89). -/
def rxTakeEnabled (s : State) : Bool := decide (s.st = stRx) && !s.rxq.isEmpty

/-- `RX_TAKE` (R89). -/
def rxTake (s : State) : State :=
  if s.st = stRx then
    match s.rxq with
    | v :: rest => takeByte v rest s
    | [] => s
  else s

end Sys2Proof.Machine
end

