-- ==== Sys2Proof/Machine/Timer.lean ====
section
/-! DEFINITION. The time base and the reply timeout: the events `TICK` and `TIMEOUT` (spec/41_session.md R92, R93), and the timeout in ticks
(spec/00_scope.md R9). -/

namespace Sys2Proof.Machine

/-- `cfg_t_reply = ceil(T_REPLY / TICK)`, both in one unit of time (R9). -/
def ticksFor (tReply tick : Nat) : Nat := (tReply + (tick - 1)) / tick

/-- `TICK`: the timer counts in `RX` and stops at `cfg_t_reply` (R92, R25). -/
def tick (s : State) : State :=
  if s.st = stRx ∧ s.tmr < s.cfgTReply then { s with tmr := s.tmr + 1 } else s

/-- The guard of `TIMEOUT`: `st = RX`, `rxq` empty and `tmr >= cfg_t_reply` (R93). With `cfg_t_reply = 0` this is the untimed
model's guard (R94; log 7). -/
def timeoutEnabled (s : State) : Bool :=
  decide (s.st = stRx) && s.rxq.isEmpty && decide (s.cfgTReply ≤ s.tmr)

/-- `TIMEOUT`: no byte gives `NO_RESPONSE`, one to three bytes are a short read (R93). -/
def timeout (s : State) : State :=
  if timeoutEnabled s = true then
    if s.rxn = 0#3 then raiseError statusNoResponse causeNone [] s
    else raiseError statusMalformed causeLength (s.rxbuf.firstBytes s.rxn) s
  else s

end Sys2Proof.Machine
end

