-- ==== Sys2Proof/Machine/Transmit.lean ====
section
/-! DEFINITION. The event `TX_ACCEPT` (spec/41_session.md R87). -/

namespace Sys2Proof.Machine

/-- The transport takes the byte the TX port shows: one byte more on the TX stream (R38), and after the fourth the
request is done (`Off`, `On`) or the bounded read starts (R87). -/
def sendByte (s : State) : State :=
  let sent := { s with txStream := s.txStream ++ [s.txData] }
  if s.txi < 3#3 then { sent with txi := s.txi + 1#3 }
  else if fireAndForget s.reqOp = true then
    complete statusOkNoReply causeNone 0x00#8 0x00#8 [] sent
  else { sent with st := stRx, txi := 0#3, rxn := 0#3, tmr := 0 }

/-- `TX_ACCEPT`; its guard is `st = TX` (R87). -/
def txAccept (s : State) : State := if s.st = stTx then sendByte s else s

end Sys2Proof.Machine
end

