-- ==== Sys2Proof/Machine/Turn.lean ====
section
/-! DEFINITION. One event of the block, whichever agent causes it (spec/41_session.md R80, R81). -/

namespace Sys2Proof.Machine

/-- A presented request that has left the port for the block to look at: its instruction runs, and one whose opcode
byte is no opcode is `SEND.RAW` (R61, R102). -/
def runRequest (r : Request) (s : State) : Host.Outcome State Fault Refusal :=
  match decodeRequest r.addr r.op with
  | some i => exec i s
  | none => request r.addr r.op s

/-- `REQ` of the request on the port; with none presented `req_valid = 0` and nothing happens (R123). -/
def presentRequest (s : State) : Host.Outcome State Fault Refusal :=
  match s.requests with
  | r :: rest => runRequest r { s with requests := rest }
  | [] => whenLive (fun t => t) s

/-- One event. Where its guard is false it has no step in the spec, and here it passes without effect (R81; log 2). -/
def runEvent (e : Event) (s : State) : Host.Outcome State Fault Refusal :=
  match e with
  | .req          => presentRequest s
  | .txAccept     => whenLive txAccept s
  | .rxArrive v   => whenLive (rxArrive v) s
  | .rxTake       => whenLive rxTake s
  | .tick         => whenLive tick s
  | .timeout      => whenLive timeout s
  | .assertReset  => .next (assertReset s)
  | .releaseReset => .next (releaseReset s)
  | .driveCfg t   => driveCfg t s
  | .readStatus   => readStatus s

/-- The event to come when the agents have chosen none: the block's own events, which are weakly fair, and else the
time base, which ticks without end (R82, R125; log 3). -/
def ownEvent (s : State) : Event :=
  if rxTakeEnabled s = true then .rxTake
  else if timeoutEnabled s = true then .timeout
  else .tick

end Sys2Proof.Machine
end

