-- ==== Sys2Proof/Machine/Step.lean ====
section
/-! DEFINITION. The step: one event (spec/41_session.md R81), and how a request word is put before it. -/

namespace Sys2Proof.Machine

/-- The next event: the first of `turns`, or the block's own (R81, R82; log 2, 3). -/
def step (s : State) : Host.Outcome State Fault Refusal :=
  match s.turns with
  | e :: es => runEvent e { s with turns := es }
  | [] => runEvent (ownEvent s) s

/-- The request whose frame an opcode-table word is, on the request port, and the host's turn next (log 5, 6). A word
that is no frame presents no request. -/
def State.withFetchWord (s : State) (nbits w : Nat) : State :=
  match decodeTableWord nbits w with
  | some i => { s with requests := i.request :: s.requests, turns := .req :: s.turns }
  | none => { s with requests := [], turns := .req :: s.turns }

end Sys2Proof.Machine
end

