-- ==== Sys2Proof/Safety.lean ====
section
/-! DEFINITION. What the claims are stated in: the invariants of the block (the legal values of spec/10_state.md section 1 and the
rules that keep them), runs of several events, and views of a state that leave registers out. -/

namespace Sys2Proof.Machine

/-- The session registers hold legal values (spec/10_state.md section 1). -/
structure SessionInv (s : State) : Prop where
  /-- `RXQ_DEPTH` "must be at least 4" (R8). -/
  depth : 4 ≤ s.rxqDepth
  /-- `rxq` holds at most `RXQ_DEPTH` bytes (R22). -/
  queue : s.rxq.length ≤ s.rxqDepth
  /-- `st` is never 3 (R17). -/
  legal : s.st ≠ stIllegal
  /-- `txi` is 0 to 3, and 0 outside `TX` (R21). -/
  txiRange : s.txi ≤ 3#3
  txiIdle : s.st ≠ stTx → s.txi = 0#3
  /-- `rxn` is 0 to 3, and 0 outside `RX` (R24). -/
  rxnRange : s.rxn ≤ 3#3
  rxnIdle : s.st ≠ stRx → s.rxn = 0#3
  /-- `tmr` stops at `cfg_t_reply`, and is 0 outside `RX` (R25, R122). -/
  tmrRange : s.tmr ≤ s.cfgTReply
  tmrIdle : s.st ≠ stRx → s.tmr = 0
  /-- While `st = TX` the buffer is the frame of the request (R20), whose opcode is legal (R19). -/
  frame : s.st = stTx → encodeRaw s.reqAddr s.reqOp = some s.txbuf
  /-- Only an ack-class request waits in `RX` (R87). -/
  ackOnly : s.st = stRx → 0x02#8 ≤ s.reqOp ∧ s.reqOp ≤ 0x05#8
  /-- `rsp_valid` is 0 while a request is in flight (R26). -/
  inFlight : s.st ≠ stIdle → s.rspValid = false
  /-- A block in reset has no request in flight (R129; log 12). -/
  inReset : s.rst = true → s.st = stIdle

/-- The response registers hold an outcome the spec describes (R26 to R30, R109, R110). -/
structure ResponseInv (s : State) : Prop where
  /-- The codes 6 and 7 are never written (R109). -/
  status : s.rspStatus ≤ 5#3
  /-- `NONE` is the status of reset only (R109). -/
  completed : s.rspValid = true → s.rspStatus ≠ statusNone
  /-- The cause is non-zero only with `MALFORMED` (R110, R28). -/
  cause : s.rspStatus ≠ statusMalformed → s.rspCause = causeNone
  /-- Only a reply has an address and an opcode to report (R29). -/
  noReply : s.rspStatus ≠ statusOkReply → s.rspAddr = 0x00#8 ∧ s.rspOp = 0x00#8
  /-- A reported reply is what DECODE makes of the four bytes read (R29, R90). -/
  reply : s.rspStatus = statusOkReply →
    s.rspLen = 4#3 ∧ decodeBytes s.rspBytes.toList = .ok s.rspAddr s.rspOp
  /-- A malformed reply reports DECODE's cause for the bytes read, 1 to 4 of them (R110, R111). -/
  malformed : s.rspStatus = statusMalformed → 1#3 ≤ s.rspLen ∧
    ∃ c, s.rspCause = causeCode c ∧ decodeBytes (s.rspBytes.firstBytes s.rspLen) = .mf c
  /-- `rsp_len` is 0 to 4, and 0 where the request read nothing (R30, R112, R113). -/
  lenRange : s.rspLen ≤ 4#3
  lenZero : s.rspStatus ≠ statusOkReply → s.rspStatus ≠ statusMalformed → s.rspLen = 0#3
  /-- `rsp_bytes[i]` for `i >= rsp_len` is 0x00 (R30). -/
  padding : ∀ i : BitVec 3, s.rspLen ≤ i → i ≤ 3#3 → s.rspBytes.get i = 0x00#8

/-- The outcome fits the class of the request (R105, R106). -/
structure OutcomeInv (s : State) : Prop where
  fireAndForget : s.rspValid = true → s.rspStatus = statusOkNoReply → fireAndForget s.reqOp = true
  ackClass : s.rspValid = true →
    s.rspStatus = statusOkReply ∨ s.rspStatus = statusNoResponse ∨ s.rspStatus = statusMalformed →
    0x02#8 ≤ s.reqOp ∧ s.reqOp ≤ 0x05#8

/-- The whole invariant. -/
structure Inv (s : State) : Prop where
  session : SessionInv s
  response : ResponseInv s
  outcome : OutcomeInv s

/-- The block out of reset in a state that has a meaning (R17, R129). -/
def State.live (s : State) : Prop := s.rst = false ∧ s.st ≠ stIllegal

/-- The event a step performs (R81, R82). -/
def nextEvent (s : State) : Event :=
  match s.turns with
  | e :: _ => e
  | [] => ownEvent s

/-- The four events that end a request, each with the state it ends it from: `REQ` of a byte that is no opcode (R85), the
`TX_ACCEPT` after `txbuf[3]` of a fire-and-forget request (R87), the `RX_TAKE` of the fourth byte (R89, R90), and
`TIMEOUT` (R93). -/
inductive Completes (s : State) : Event → Prop where
  | refused : s.st = stIdle → (∃ r, s.requests.head? = some r ∧ 0x05#8 < r.op) → Completes s .req
  | sent : s.st = stTx → 3#3 ≤ s.txi → fireAndForget s.reqOp = true → Completes s .txAccept
  | taken : s.st = stRx → s.rxq ≠ [] → 3#3 ≤ s.rxn → Completes s .rxTake
  | elapsed : s.st = stRx → s.rxq = [] → s.cfgTReply ≤ s.tmr → Completes s .timeout

/-- `k` events in a row. -/
abbrev runFor (k : Nat) (s : State) : Host.Outcome State Fault Refusal := Host.Core.run Sys2Proof.core k s

/-- The events that reset, the timeout input and a host read are not: those of the rules R84 to R93. -/
def Event.ofSession : Event → Bool
  | .req | .txAccept | .rxArrive _ | .rxTake | .tick | .timeout => true
  | .assertReset | .releaseReset | .driveCfg _ | .readStatus => false

/-- The reset line moves (R129). -/
def Event.ofReset : Event → Bool
  | .assertReset | .releaseReset => true
  | .req | .txAccept | .rxArrive _ | .rxTake | .tick | .timeout | .driveCfg _ | .readStatus => false

/-- The event `TX_ACCEPT`. -/
def Event.isTxAccept (e : Event) : Bool := decide (e = .txAccept)

/-- The transport delivers each byte and the session takes it at once. -/
def deliver (bytes : List Byte) : List Event := bytes.flatMap fun b => [.rxArrive b, .rxTake]

/-- `REQ` and the four `TX_ACCEPT` events of a request (R96, R103). -/
def sendEvents : List Event := [.req, .txAccept, .txAccept, .txAccept, .txAccept]

/-- A state of the untimed model, which has no timer and no timeout input (R94): both stand at 0, where `TICK` changes
nothing and the guard of `TIMEOUT` is `st = RX` and `rxq` empty (log 7). -/
def untimed (s : State) : State := { s with tmr := 0, cfgTReply := 0 }

/-- A state without the response registers that no rule of the block reads (R28, R30). -/
def withoutReport (s : State) : State :=
  { s with rspCause := 0#2, rspAddr := 0x00#8, rspOp := 0x00#8, rspLen := 0#3, rspBytes := ⟨0x00#8, 0x00#8, 0x00#8, 0x00#8⟩ }

/-- A state without the registers that are written before they are next read (R130): outside `TX` the transmit
registers, outside `RX` the receive counter, timer and buffer, in `RX` the stale bytes of the buffer. The request's
opcode is read at the end of `TX` only (R87, R19). -/
def withoutStale (s : State) : State :=
  { s with
    reqAddr := 0x00#8
    reqOp := if s.st = stTx then s.reqOp else 0x00#8
    txbuf := if s.st = stTx then s.txbuf else ⟨0x00#8, 0x00#8, 0x00#8, 0x00#8⟩
    txi := if s.st = stTx then s.txi else 0#3
    rxn := if s.st = stRx then s.rxn else 0#3
    tmr := if s.st = stRx then s.tmr else 0
    rxbuf := if s.st = stRx then Quad.ofBytes (s.rxbuf.firstBytes s.rxn) else ⟨0x00#8, 0x00#8, 0x00#8, 0x00#8⟩ }

end Sys2Proof.Machine
end

