-- ==== Sys2Proof/Certificates/Slice0/Obligations.lean ====
section
/-! DEFINITION. The statements for the provers, from the numbered rules of spec/. -/

open Sys2Proof Sys2Proof.Machine

/-! ## The codec -/

/-- R71: CHECKSUM is the sum of `0xA0`, the address and the opcode byte modulo 256, for all 65536 pairs; the sum before
the cut is at most 0x2FE; the corner cases and the example. -/
def Obligations.ChecksumIsTheByteSum : Prop :=
  (∀ a o : Byte, (checksum a o).toNat = (0xA0 + a.toNat + o.toNat) % 256 ∧ 0xA0 + a.toNat + o.toNat ≤ 0x2FE) ∧
  checksum 0x60#8 0x00#8 = 0x00#8 ∧ checksum 0x5F#8 0x01#8 = 0x00#8 ∧ checksum 0xFF#8 0x05#8 = 0xA4#8 ∧
  checksum 0x00#8 0x00#8 = 0xA0#8 ∧ checksum 0x01#8 0x05#8 = 0xA6#8

/-- R72: ENCODE rejects exactly the opcode bytes above 0x05 and otherwise builds `{0xA0, a, o, CHECKSUM(a, o)}`, for every
address, the reserved ones too; the corner cases and the example. -/
def Obligations.EncodeBuildsTheFrameOrRejects : Prop :=
  (∀ a o : Byte, encodeRaw a o = if 0x05#8 < o then none else some ⟨0xA0#8, a, o, checksum a o⟩) ∧
  encodeRaw 0xFF#8 0x05#8 = some ⟨0xA0#8, 0xFF#8, 0x05#8, 0xA4#8⟩ ∧
  encodeRaw 0x5F#8 0x01#8 = some ⟨0xA0#8, 0x5F#8, 0x01#8, 0x00#8⟩ ∧
  encodeRaw 0x01#8 0x00#8 = some ⟨0xA0#8, 0x01#8, 0x00#8, 0xA1#8⟩

/-- R73, R117: DECODE of any byte sequence: the length first, then the opcode byte, then the compare with the re-encoded
candidate; the corner cases and the example. -/
def Obligations.DecodeChecksInOrder : Prop :=
  (∀ s : List Byte, s.length ≠ 4 → decodeBytes s = .mf .length) ∧
  (∀ s0 s1 s2 s3 : Byte, 0x05#8 < s2 → decodeBytes [s0, s1, s2, s3] = .mf .badOpcode) ∧
  (∀ s0 s1 s2 s3 : Byte, s2 ≤ 0x05#8 → encodeRaw s1 s2 ≠ some ⟨s0, s1, s2, s3⟩ →
    decodeBytes [s0, s1, s2, s3] = .mf .mismatch) ∧
  (∀ s0 s1 s2 s3 : Byte, s2 ≤ 0x05#8 → encodeRaw s1 s2 = some ⟨s0, s1, s2, s3⟩ →
    decodeBytes [s0, s1, s2, s3] = .ok s1 s2) ∧
  decodeBytes [0xA0#8, 0x01#8, 0x06#8, 0xA7#8] = .mf .badOpcode ∧
  decodeBytes [0xA1#8, 0x01#8, 0x05#8, 0xA6#8] = .mf .mismatch ∧
  decodeBytes [0xA0#8, 0x01#8, 0x05#8, 0xA7#8] = .mf .mismatch ∧
  decodeBytes [0xA0#8, 0x00#8, 0x00#8, 0xA0#8] = .ok 0x00#8 0x00#8 ∧
  decodeBytes [0xA0#8, 0x01#8, 0x03#8, 0xA4#8] = .ok 0x01#8 0x03#8

/-- R74: for four bytes with a legal opcode byte, the re-encoded frame differs exactly when byte 0 or byte 3 does, so a
decoder that checks those two bytes alone agrees with DECODE. -/
def Obligations.DecodeNeedsBytesZeroAndThree : Prop :=
  ∀ s0 s1 s2 s3 : Byte, s2 ≤ 0x05#8 →
    (encodeRaw s1 s2 ≠ some ⟨s0, s1, s2, s3⟩ ↔ s0 ≠ 0xA0#8 ∨ s3 ≠ checksum s1 s2) ∧
    decodeBytes [s0, s1, s2, s3] =
      if s0 = 0xA0#8 ∧ s3 = checksum s1 s2 then .ok s1 s2 else .mf .mismatch

/-- R75: the round trip of the codec, for every address and every legal opcode byte. -/
def Obligations.DecodeOfEncode : Prop :=
  ∀ a o : Byte, o ≤ 0x05#8 → ∃ f, encodeRaw a o = some f ∧ decodeBytes f.toList = .ok a o

/-- R62, R76: DECODE accepts only what ENCODE reproduces byte for byte, so it is injective on what it accepts; the valid
frames are exactly the 1536 sequences `{0xA0, a, o, (0xA0 + a + o) mod 256}` with `o` in 0x00 to 0x05, and every other
4-byte sequence is rejected. -/
def Obligations.AcceptedFramesReencode : Prop :=
  (∀ (s : List Byte) (a o : Byte), decodeBytes s = .ok a o → ∃ f, encodeRaw a o = some f ∧ f.toList = s) ∧
  (∀ (s s' : List Byte) (a o : Byte), decodeBytes s = .ok a o → decodeBytes s' = .ok a o → s = s') ∧
  ∃ frames : List (List Byte), frames.Nodup ∧ frames.length = 1536 ∧
    (∀ s, s ∈ frames ↔ ∃ a o, decodeBytes s = .ok a o) ∧
    (∀ s, s ∈ frames ↔ ∃ a o : Byte, o ≤ 0x05#8 ∧
      s = [0xA0#8, a, o, BitVec.ofNat 8 ((0xA0 + a.toNat + o.toNat) % 256)])

/-- R77: any one byte of a valid frame changed to any other value is rejected, with the cause the rule gives, and so is
every flip of a single bit. -/
def Obligations.EverySingleByteChangeIsRejected : Prop :=
  ∀ a o : Byte, o ≤ 0x05#8 →
    (∀ v, v ≠ 0xA0#8 → decodeBytes [v, a, o, checksum a o] = .mf .mismatch) ∧
    (∀ v, v ≠ a → decodeBytes [0xA0#8, v, o, checksum a o] = .mf .mismatch) ∧
    (∀ v, v ≠ o → decodeBytes [0xA0#8, a, v, checksum a o] = .mf (if 0x05#8 < v then .badOpcode else .mismatch)) ∧
    (∀ v, v ≠ checksum a o → decodeBytes [0xA0#8, a, o, v] = .mf .mismatch) ∧
    (∀ k : Nat, k < 8 →
      (∃ c, decodeBytes [0xA0#8 ^^^ (1#8 <<< k), a, o, checksum a o] = .mf c) ∧
      (∃ c, decodeBytes [0xA0#8, a ^^^ (1#8 <<< k), o, checksum a o] = .mf c) ∧
      (∃ c, decodeBytes [0xA0#8, a, o ^^^ (1#8 <<< k), checksum a o] = .mf c) ∧
      (∃ c, decodeBytes [0xA0#8, a, o, checksum a o ^^^ (1#8 <<< k)] = .mf c))

/-- R78: two-byte changes that go undetected: a change of byte 1 against byte 2, and of byte 1 with byte 3; the rule's
examples. -/
def Obligations.TwoByteChangesCanGoUndetected : Prop :=
  (∀ a o d : Byte, checksum (a + d) (o - d) = checksum a o) ∧
  (∀ a o d : Byte, o ≤ 0x05#8 → o - d ≤ 0x05#8 →
    decodeBytes [0xA0#8, a + d, o - d, checksum a o] = .ok (a + d) (o - d)) ∧
  (∀ a o d : Byte, o ≤ 0x05#8 → decodeBytes [0xA0#8, a + d, o, checksum a o + d] = .ok (a + d) o) ∧
  decodeBytes [0xA0#8, 0x01#8, 0x03#8, 0xA4#8] = .ok 0x01#8 0x03#8 ∧
  decodeBytes [0xA0#8, 0x02#8, 0x02#8, 0xA4#8] = .ok 0x02#8 0x02#8 ∧
  decodeBytes [0xA0#8, 0x01#8, 0x05#8, 0xA6#8] = .ok 0x01#8 0x05#8 ∧
  decodeBytes [0xA0#8, 0x02#8, 0x05#8, 0xA7#8] = .ok 0x02#8 0x05#8

/-- R79: for a fixed opcode byte the checksum is a bijection of the addresses, and for a fixed address the checksums of the
six opcodes are six consecutive values modulo 256. -/
def Obligations.ChecksumIsABijection : Prop :=
  (∀ o : Byte, Function.Bijective fun a : Byte => checksum a o) ∧
  (∀ (a : Byte) (k : Nat), k < 6 → checksum a (BitVec.ofNat 8 k) = checksum a 0x00#8 + BitVec.ofNat 8 k)

/-- The round trip of instructions: the frame of every instruction decodes to it, byte by byte and as an opcode-table
word, two instructions never share a frame, and a byte sequence or a word that decodes is the instruction's whole frame,
its checksum byte too (R55, R61, R75). -/
def Obligations.DecodeOfEncodeInstr : Prop :=
  (∀ i : Instr, i.wellFormed = true → decode (encode i).toList = .ok i) ∧
  (∀ i : Instr, i.wellFormed = true → decodeTableWord 32 (frameWord (encode i)) = some i) ∧
  (∀ i j : Instr, encode i = encode j → i = j) ∧
  (∀ (s : List Byte) (i : Instr), decode s = .ok i → (encode i).toList = s) ∧
  (∀ (nbits w : Nat) (i : Instr), decodeTableWord nbits w = some i → nbits ≤ 32 ∧ w % 2 ^ nbits = frameWord (encode i))

/-- Words written out from the encodings of spec/opcode_table.json and spec/95_test_vectors.md decode to their instructions;
a word with no opcode in byte 2, another byte 0 or a wrong CHK is refused. -/
def Obligations.TableWordsDecode : Prop :=
  decodeTableWord 32 0xA00100A1 = some (.off 0x01#8) ∧
  decodeTableWord 32 0xA05F0100 = some (.on 0x5F#8) ∧
  decodeTableWord 32 0xA00102A3 = some (.offAck 0x01#8) ∧
  decodeTableWord 32 0xA00103A4 = some (.onAck 0x01#8) ∧
  decodeTableWord 32 0xA0FF04A3 = some (.negateAck 0xFF#8) ∧
  decodeTableWord 32 0xA00105A6 = some (.queryAck 0x01#8) ∧
  decodeTableWord 32 0xA00106A7 = none ∧
  decodeTableWord 32 0xA10105A6 = none ∧
  decodeTableWord 32 0xA0010000 = none ∧
  decodeTableWord 32 0xA00105A7 = none

/-! ## Requests -/

/-- A step whose event is `REQ` runs exactly the instruction that the presented request decodes to, on the state in
which the event and the request have been taken up (log 1, log 2); a request whose opcode byte is no opcode runs as
`SEND.RAW`; and a word that is a frame, put before the machine, runs its instruction on the state itself (that a word
stands for a request, and how it is put there, is the model's: log 5, log 6). -/
def Obligations.StepRunsTheDecodedInstruction : Prop :=
  (∀ (s : State) (a o : Byte) (rest : List Request) (ts : List Event) (i : Instr),
    s.turns = .req :: ts → s.requests = ⟨a, o⟩ :: rest → decodeRequest a o = some i →
    step s = exec i { s with turns := ts, requests := rest }) ∧
  (∀ (s : State) (a o : Byte) (rest : List Request) (ts : List Event),
    s.turns = .req :: ts → s.requests = ⟨a, o⟩ :: rest → decodeRequest a o = none →
    step s = request a o { s with turns := ts, requests := rest }) ∧
  (∀ (s : State) (nbits w : Nat) (i : Instr),
    decodeTableWord nbits w = some i → step (s.withFetchWord nbits w) = exec i s)

/-- R96, R97: OFF and ON complete their `REQ` in every state with `req_ready`, for every address: the frame to send is
`[A0 addr OP CHECKSUM]`, and nothing but the registers of R84 changes. -/
def Obligations.FireAndForgetRequestsAreAccepted : Prop :=
  ∀ (s : State) (a : Byte), s.reqReady = true →
    exec (.off a) s = .next { s with
      rspValid := false, reqAddr := a, reqOp := 0x00#8, txbuf := ⟨0xA0#8, a, 0x00#8, checksum a 0x00#8⟩,
      txi := 0#3, st := 1#2 } ∧
    exec (.on a) s = .next { s with
      rspValid := false, reqAddr := a, reqOp := 0x01#8, txbuf := ⟨0xA0#8, a, 0x01#8, checksum a 0x01#8⟩,
      txi := 0#3, st := 1#2 }

/-- R98 to R101: OFFACK, ONACK, NEGATEACK and QUERYACK complete their `REQ` in every state with `req_ready`, for every
address. -/
def Obligations.AckClassRequestsAreAccepted : Prop :=
  ∀ (s : State) (a : Byte), s.reqReady = true →
    exec (.offAck a) s = .next { s with
      rspValid := false, reqAddr := a, reqOp := 0x02#8, txbuf := ⟨0xA0#8, a, 0x02#8, checksum a 0x02#8⟩,
      txi := 0#3, st := 1#2 } ∧
    exec (.onAck a) s = .next { s with
      rspValid := false, reqAddr := a, reqOp := 0x03#8, txbuf := ⟨0xA0#8, a, 0x03#8, checksum a 0x03#8⟩,
      txi := 0#3, st := 1#2 } ∧
    exec (.negateAck a) s = .next { s with
      rspValid := false, reqAddr := a, reqOp := 0x04#8, txbuf := ⟨0xA0#8, a, 0x04#8, checksum a 0x04#8⟩,
      txi := 0#3, st := 1#2 } ∧
    exec (.queryAck a) s = .next { s with
      rspValid := false, reqAddr := a, reqOp := 0x05#8, txbuf := ⟨0xA0#8, a, 0x05#8, checksum a 0x05#8⟩,
      txi := 0#3, st := 1#2 }

/-- R84: the event `REQ(a, o)` with a legal opcode, in `IDLE` and out of reset, for every address. -/
def Obligations.RequestIsAccepted : Prop :=
  ∀ (s : State) (a o : Byte) (rest : List Request) (ts : List Event),
    s.turns = .req :: ts → s.requests = ⟨a, o⟩ :: rest → s.st = 0#2 → s.rst = false → o ≤ 0x05#8 →
    ∃ f, encodeRaw a o = some f ∧
      step s = .next { s with
        turns := ts, requests := rest,
        rspValid := false, reqAddr := a, reqOp := o, txbuf := f, txi := 0#3, st := 1#2 }

/-- R85, R102: a request with an opcode byte above 0x05 completes `INVALID_OPCODE` in the same event: `st` stays `IDLE`, no
TX byte is offered, and neither queue nor overflow bit is touched. -/
def Obligations.InvalidOpcodeIsRefused : Prop :=
  ∀ (s : State) (a o : Byte) (rest : List Request) (ts : List Event),
    s.turns = .req :: ts → s.requests = ⟨a, o⟩ :: rest → s.st = 0#2 → s.rst = false → 0x05#8 < o →
    encodeRaw a o = none ∧
    ∃ t, step s = .next t ∧
      t = { s with
        turns := ts, requests := rest,
        rspStatus := 5#3, rspCause := 0#2, rspAddr := 0x00#8, rspOp := 0x00#8, rspLen := 0#3,
        rspBytes := ⟨0x00#8, 0x00#8, 0x00#8, 0x00#8⟩, rspValid := true,
        txi := 0#3, rxn := 0#3, tmr := 0 } ∧
      t.txValid = false ∧ t.txStream = s.txStream ∧ t.rxq = s.rxq ∧ t.rxqOvf = s.rxqOvf

/-- R86: `req_ready = 0` outside `IDLE`, and a request presented while one is in flight is not taken: every instruction and
every opcode byte stays on the request port, nothing else changes, and the request in flight is not replaced. That the
waiting host is a list and the turn passes is the model's form of it (log 2, log 4). -/
def Obligations.RequestIsHeldWhileBusy : Prop :=
  (∀ s : State, s.st ≠ 0#2 → s.reqReady = false) ∧
  (∀ (s : State) (i : Instr), s.st = 1#2 ∨ s.st = 2#2 →
    exec i s = .next { s with requests := i.request :: s.requests }) ∧
  (∀ (s : State) (r : Request) (rest : List Request) (ts : List Event),
    s.turns = .req :: ts → s.requests = r :: rest → s.st = 1#2 ∨ s.st = 2#2 →
    step s = .next { s with turns := ts })

/-- The frame of every instruction that meets a next state: it leaves everything but the registers of R84 and the request
port alone (R84, R86, R18). -/
def Obligations.RequestFrame : Prop :=
  ∀ (i : Instr) (s t : State), exec i s = .next t →
    t.rxbuf = s.rxbuf ∧ t.rxn = s.rxn ∧ t.tmr = s.tmr ∧ t.rxq = s.rxq ∧ t.rxqOvf = s.rxqOvf ∧
    t.rspStatus = s.rspStatus ∧ t.rspCause = s.rspCause ∧ t.rspAddr = s.rspAddr ∧ t.rspOp = s.rspOp ∧
    t.rspLen = s.rspLen ∧ t.rspBytes = s.rspBytes ∧ t.cfgTReply = s.cfgTReply ∧ t.rst = s.rst ∧
    t.rxqDepth = s.rxqDepth ∧ t.turns = s.turns ∧ t.txStream = s.txStream ∧
    (s.reqReady = false → t = { s with requests := i.request :: s.requests }) ∧
    (s.reqReady = true → t.requests = s.requests)

/-! ## Sending -/

/-- R87: `TX_ACCEPT` in `TX`: the port shows `txbuf[txi]`, that byte goes out, and after the fourth a fire-and-forget request
completes `OK_NOREPLY` while an ack-class request enters `RX` with its timer at 0. No TX byte has a timeout. -/
def Obligations.TxAcceptSendsTheShownByte : Prop :=
  ∀ (s : State) (ts : List Event), s.turns = .txAccept :: ts → s.st = 1#2 → s.rst = false →
    s.txValid = true ∧ s.txData = s.txbuf.get s.txi ∧ timeoutEnabled s = false ∧
    step s = .next (
      if s.txi < 3#3 then
        { s with turns := ts, txStream := s.txStream ++ [s.txbuf.get s.txi], txi := s.txi + 1#3 }
      else if s.reqOp = 0x00#8 ∨ s.reqOp = 0x01#8 then
        { s with
          turns := ts, txStream := s.txStream ++ [s.txbuf.get s.txi],
          rspStatus := 1#3, rspCause := 0#2, rspAddr := 0x00#8, rspOp := 0x00#8, rspLen := 0#3,
          rspBytes := ⟨0x00#8, 0x00#8, 0x00#8, 0x00#8⟩, rspValid := true,
          st := 0#2, txi := 0#3, rxn := 0#3, tmr := 0 }
      else
        { s with
          turns := ts, txStream := s.txStream ++ [s.txbuf.get s.txi],
          st := 2#2, txi := 0#3, rxn := 0#3, tmr := 0 })

/-- R103: however the other agents' events fall between them, an accepted request stays in `TX` until four `TX_ACCEPT`
events have carried its frame in order, and at the fourth it completes or enters `RX`; a refused request sends nothing; and
no event outside `TX` adds to the TX stream. -/
def Obligations.FourTxAcceptsCarryTheFrame : Prop :=
  (∀ (s : State) (a o : Byte) (f : Quad) (rest : List Request) (es ts : List Event),
    s.reqReady = true → encodeRaw a o = some f → s.requests = ⟨a, o⟩ :: rest →
    s.turns = .req :: es ++ ts → (∀ e ∈ es, e.ofSession = true) → es.countP Event.isTxAccept < 4 →
    ∃ t, runFor (es.length + 1) s = .next t ∧ t.turns = ts ∧ t.requests = rest ∧ t.st = 1#2 ∧ t.rspValid = false ∧
      t.txStream = s.txStream ++ f.toList.take (es.countP Event.isTxAccept)) ∧
  (∀ (s : State) (a o : Byte) (f : Quad) (rest : List Request) (es ts : List Event),
    s.reqReady = true → encodeRaw a o = some f → s.requests = ⟨a, o⟩ :: rest →
    s.turns = .req :: es ++ .txAccept :: ts → (∀ e ∈ es, e.ofSession = true) → es.countP Event.isTxAccept = 3 →
    ∃ t, runFor (es.length + 2) s = .next t ∧ t.turns = ts ∧ t.requests = rest ∧
      t.txStream = s.txStream ++ f.toList ∧
      (o ≤ 0x01#8 → t.st = 0#2 ∧ t.rspValid = true ∧ t.rspStatus = 1#3) ∧
      (0x02#8 ≤ o → t.st = 2#2 ∧ t.rspValid = false ∧ t.rxn = 0#3 ∧ t.tmr = 0)) ∧
  (∀ (s t : State) (a o : Byte) (rest : List Request), s.requests = ⟨a, o⟩ :: rest → encodeRaw a o = none →
    nextEvent s = .req → step s = .next t → t.txStream = s.txStream ∧ t.st = s.st) ∧
  (∀ s t : State, s.st ≠ 1#2 → step s = .next t → t.txStream = s.txStream)

/-- R96, R97: OFF and ON as whole requests: `REQ` and four `TX_ACCEPT` events send the frame, take nothing from `rxq` and
complete `OK_NOREPLY` with every other response register zero. -/
def Obligations.FireAndForgetRequestsComplete : Prop :=
  ∀ (s : State) (a o : Byte) (rest : List Request) (ts : List Event),
    s.reqReady = true → o = 0x00#8 ∨ o = 0x01#8 → s.requests = ⟨a, o⟩ :: rest → s.turns = sendEvents ++ ts →
    runFor 5 s = .next { s with
      turns := ts, requests := rest,
      reqAddr := a, reqOp := o, txbuf := ⟨0xA0#8, a, o, checksum a o⟩,
      txStream := s.txStream ++ [0xA0#8, a, o, checksum a o],
      rspStatus := 1#3, rspCause := 0#2, rspAddr := 0x00#8, rspOp := 0x00#8, rspLen := 0#3,
      rspBytes := ⟨0x00#8, 0x00#8, 0x00#8, 0x00#8⟩, rspValid := true,
      st := 0#2, txi := 0#3, rxn := 0#3, tmr := 0 }

/-! ## Receiving -/

/-- R88: `RX_ARRIVE(v)` in every state out of reset: queued while `rxq` holds fewer than `RXQ_DEPTH` bytes, lost with the
overflow bit set otherwise. -/
def Obligations.RxArriveQueuesOrOverflows : Prop :=
  ∀ (s : State) (v : Byte) (ts : List Event), s.turns = .rxArrive v :: ts → s.rst = false → s.st ≠ 3#2 →
    (s.rxq.length < s.rxqDepth → step s = .next { s with turns := ts, rxq := s.rxq ++ [v] }) ∧
    (s.rxqDepth ≤ s.rxq.length → step s = .next { s with turns := ts, rxqOvf := true })

/-- R23: the overflow bit is set by a byte that arrives while `rxq` holds `RXQ_DEPTH` bytes, the byte is then lost, and only
reset clears it. -/
def Obligations.OverflowBitIsSticky : Prop :=
  (∀ (s : State) (v : Byte) (ts : List Event), s.turns = .rxArrive v :: ts → s.rst = false → s.st ≠ 3#2 →
    s.rxq.length = s.rxqDepth → ∃ t, step s = .next t ∧ t.rxqOvf = true ∧ t.rxq = s.rxq) ∧
  (∀ s t : State, step s = .next t → s.rxqOvf = false → t.rxqOvf = true →
    s.rxqDepth ≤ s.rxq.length ∧ ∃ v, nextEvent s = .rxArrive v) ∧
  (∀ s t : State, step s = .next t → s.rxqOvf = true → t.rxqOvf = false → (nextEvent s).ofReset = true)

/-- R89: `RX_TAKE` takes the byte at the head of `rxq` into `rxbuf[rxn]`; the first three count up `rxn` and leave the timer
alone, the fourth goes to DECODE_DONE with the four bytes; `rxn` stays in 0 to 3; a byte that arrives leaves the timer
alone. -/
def Obligations.RxTakeTakesTheHead : Prop :=
  (∀ (s : State) (v : Byte) (rest : List Byte) (ts : List Event),
    s.turns = .rxTake :: ts → s.rst = false → s.st = 2#2 → s.rxq = v :: rest →
    (s.rxn < 3#3 → step s = .next { s with
      turns := ts, rxq := rest, rxbuf := s.rxbuf.set s.rxn v, rxn := s.rxn + 1#3 }) ∧
    (s.rxn = 3#3 → step s = .next (decodeDone [s.rxbuf.b0, s.rxbuf.b1, s.rxbuf.b2, v] { s with
      turns := ts, rxq := rest, rxbuf := { s.rxbuf with b3 := v } }))) ∧
  (∀ s t : State, s.rxn ≤ 3#3 → step s = .next t → t.rxn ≤ 3#3) ∧
  (∀ (s t : State) (v : Byte), nextEvent s = .rxArrive v → step s = .next t → t.tmr = s.tmr)

/-- R90: DECODE_DONE, inside the event that takes the fourth byte: a decoded reply completes `OK_REPLY` with its address and
opcode, a malformed one completes `MALFORMED` with DECODE's cause, coded as 60_exceptions.md section 1 gives it; the four
bytes are reported and later bytes stay queued. -/
def Obligations.FourthByteDecodes : Prop :=
  causeCode .length = 1#2 ∧ causeCode .badOpcode = 2#2 ∧ causeCode .mismatch = 3#2 ∧
  ∀ (s : State) (v : Byte) (rest : List Byte) (ts : List Event),
    s.turns = .rxTake :: ts → s.rst = false → s.st = 2#2 → s.rxq = v :: rest → s.rxn = 3#3 →
    (∀ a o, decodeBytes [s.rxbuf.b0, s.rxbuf.b1, s.rxbuf.b2, v] = .ok a o →
      step s = .next { s with
        turns := ts, rxq := rest, rxbuf := { s.rxbuf with b3 := v },
        rspStatus := 2#3, rspCause := 0#2, rspAddr := a, rspOp := o, rspLen := 4#3,
        rspBytes := { s.rxbuf with b3 := v }, rspValid := true, st := 0#2, txi := 0#3, rxn := 0#3, tmr := 0 }) ∧
    (∀ c, decodeBytes [s.rxbuf.b0, s.rxbuf.b1, s.rxbuf.b2, v] = .mf c →
      step s = .next { s with
        turns := ts, rxq := rest, rxbuf := { s.rxbuf with b3 := v },
        rspStatus := 4#3, rspCause := causeCode c, rspAddr := 0x00#8, rspOp := 0x00#8, rspLen := 4#3,
        rspBytes := { s.rxbuf with b3 := v }, rspValid := true, st := 0#2, txi := 0#3, rxn := 0#3, tmr := 0 })

/-- R91: the reply is not compared with the request: any valid frame, of any address and any of the six opcodes, completes
`OK_REPLY`, whatever request is in flight. -/
def Obligations.ReplyIsNotComparedWithTheRequest : Prop :=
  ∀ (s : State) (reqA reqO a o : Byte) (rest : List Byte) (ts : List Event),
    s.turns = .rxTake :: ts → s.rst = false → s.st = 2#2 → s.rxn = 3#3 → o ≤ 0x05#8 →
    s.rxbuf.b0 = 0xA0#8 → s.rxbuf.b1 = a → s.rxbuf.b2 = o → s.rxq = checksum a o :: rest →
    ∃ t, step { s with reqAddr := reqA, reqOp := reqO } = .next t ∧
      t.rspValid = true ∧ t.rspStatus = 2#3 ∧ t.rspAddr = a ∧ t.rspOp = o ∧ t.st = 0#2

/-! ## The timer -/

/-- R92: `TICK` counts in `RX` up to `cfg_t_reply` and changes nothing in every other state. -/
def Obligations.TickCountsInRx : Prop :=
  ∀ (s : State) (ts : List Event), s.turns = .tick :: ts →
    (s.rst = false → s.st = 2#2 → s.tmr < s.cfgTReply → step s = .next { s with turns := ts, tmr := s.tmr + 1 }) ∧
    (s.rst = false → s.st = 2#2 → s.cfgTReply ≤ s.tmr → step s = .next { s with turns := ts }) ∧
    (s.st = 0#2 ∨ s.st = 1#2 → step s = .next { s with turns := ts })

/-- R93: `TIMEOUT`, whose guard is `st = RX`, `rxq` empty and `tmr >= cfg_t_reply`: without a byte taken it completes
`NO_RESPONSE`, after one to three bytes `MALFORMED` with cause `LENGTH`, as DECODE of the short read gives it, and those
bytes. -/
def Obligations.TimeoutEndsTheRead : Prop :=
  (∀ s : State, timeoutEnabled s = true ↔ s.st = 2#2 ∧ s.rxq = [] ∧ s.cfgTReply ≤ s.tmr) ∧
  (∀ (s : State) (ts : List Event), s.turns = .timeout :: ts → s.rst = false → timeoutEnabled s = true →
    (s.rxn = 0#3 → step s = .next { s with
      turns := ts,
      rspStatus := 3#3, rspCause := 0#2, rspAddr := 0x00#8, rspOp := 0x00#8, rspLen := 0#3,
      rspBytes := ⟨0x00#8, 0x00#8, 0x00#8, 0x00#8⟩, rspValid := true, st := 0#2, txi := 0#3, rxn := 0#3, tmr := 0 }) ∧
    (1#3 ≤ s.rxn → s.rxn ≤ 3#3 →
      decodeBytes (s.rxbuf.toList.take s.rxn.toNat) = .mf .length ∧
      step s = .next { s with
        turns := ts,
        rspStatus := 4#3, rspCause := 1#2, rspAddr := 0x00#8, rspOp := 0x00#8, rspLen := s.rxn,
        rspBytes := ⟨s.rxbuf.b0, if 2#3 ≤ s.rxn then s.rxbuf.b1 else 0x00#8,
          if s.rxn = 3#3 then s.rxbuf.b2 else 0x00#8, 0x00#8⟩,
        rspValid := true, st := 0#2, txi := 0#3, rxn := 0#3, tmr := 0 }))

/-- An event whose guard is false passes without effect: the model's form of "no step" (log 2). `TX_ACCEPT` outside `TX`,
`RX_TAKE` outside `RX` or with an empty queue, `TIMEOUT` with its guard of R93 false, `REQ` with no request presented, and a
release of a reset line that is not raised. -/
def Obligations.DisabledEventsHaveNoEffect : Prop :=
  ∀ (s : State) (ts : List Event), s.st ≠ 3#2 →
    (s.turns = .txAccept :: ts → s.txValid = false → step s = .next { s with turns := ts }) ∧
    (s.turns = .rxTake :: ts → s.st ≠ 2#2 ∨ s.rxq = [] → step s = .next { s with turns := ts }) ∧
    (s.turns = .timeout :: ts → s.st ≠ 2#2 ∨ s.rxq ≠ [] ∨ s.tmr < s.cfgTReply → step s = .next { s with turns := ts }) ∧
    (s.turns = .req :: ts → s.requests = [] → step s = .next { s with turns := ts }) ∧
    (s.turns = .releaseReset :: ts → s.rst = false → step s = .next { s with turns := ts })

/-- R94: the untimed model, which is this one with the timer and its limit at 0 (log 7): `TIMEOUT` is enabled there whenever
`st = RX` and `rxq` is empty, and every run of the timed model, whatever its timeout, is a run of the untimed model for
some choice of events. -/
def Obligations.UntimedModelAdmitsEveryRun : Prop :=
  (∀ s : State, timeoutEnabled (untimed s) = true ↔ s.st = 2#2 ∧ s.rxq = []) ∧
  ∀ (k : Nat) (s t : State), runFor k s = .next t →
    ∃ es : List Event, es.length = k ∧
      runFor k { untimed s with turns := es } = .next { untimed t with turns := [] }

/-- R9: `cfg_t_reply` is the least number of ticks that lasts at least `T_REPLY`. -/
def Obligations.TicksForIsTheCeiling : Prop :=
  ∀ tReply tick : Nat, 0 < tick →
    tReply ≤ ticksFor tReply tick * tick ∧ ∀ n, tReply ≤ n * tick → ticksFor tReply tick ≤ n

/-! ## Whole requests and whole-machine rules -/

/-- R98 to R101: an ack-class request as a whole: `REQ`, four `TX_ACCEPT` events, then four bytes delivered and taken, end
in `OK_REPLY` or `MALFORMED` as DECODE judges the four bytes. -/
def Obligations.AckClassRequestsCompleteWithTheReply : Prop :=
  ∀ (s : State) (a o b0 b1 b2 b3 : Byte) (rest : List Request) (ts : List Event),
    s.reqReady = true → 0x02#8 ≤ o → o ≤ 0x05#8 → s.requests = ⟨a, o⟩ :: rest → s.rxq = [] → 4 ≤ s.rxqDepth →
    s.turns = sendEvents ++ deliver [b0, b1, b2, b3] ++ ts →
    ∃ t, runFor 13 s = .next t ∧
      (∀ a' o', decodeBytes [b0, b1, b2, b3] = .ok a' o' →
        t.rspStatus = 2#3 ∧ t.rspCause = 0#2 ∧ t.rspAddr = a' ∧ t.rspOp = o') ∧
      (∀ c, decodeBytes [b0, b1, b2, b3] = .mf c →
        t.rspStatus = 4#3 ∧ t.rspCause = causeCode c ∧ t.rspAddr = 0x00#8 ∧ t.rspOp = 0x00#8) ∧
      t = { s with
        turns := ts, requests := rest,
        reqAddr := a, reqOp := o, txbuf := ⟨0xA0#8, a, o, checksum a o⟩,
        txStream := s.txStream ++ [0xA0#8, a, o, checksum a o],
        rxbuf := ⟨b0, b1, b2, b3⟩,
        rspStatus := t.rspStatus, rspCause := t.rspCause, rspAddr := t.rspAddr, rspOp := t.rspOp,
        rspLen := 4#3, rspBytes := ⟨b0, b1, b2, b3⟩, rspValid := true,
        st := 0#2, txi := 0#3, rxn := 0#3, tmr := 0 }

/-- R98 to R101, R93: an ack-class request as a whole whose device sends fewer than four bytes: when `cfg_t_reply` ticks have
passed, `TIMEOUT` completes `NO_RESPONSE` if no byte came, and `MALFORMED` with cause `LENGTH` and the bytes taken
otherwise. -/
def Obligations.AckClassRequestsCompleteByTimeout : Prop :=
  ∀ (s : State) (a o : Byte) (bytes : List Byte) (rest : List Request) (ts : List Event),
    s.reqReady = true → 0x02#8 ≤ o → o ≤ 0x05#8 → s.requests = ⟨a, o⟩ :: rest → s.rxq = [] → 4 ≤ s.rxqDepth →
    bytes.length < 4 →
    s.turns = sendEvents ++ deliver bytes ++ List.replicate s.cfgTReply .tick ++ .timeout :: ts →
    ∃ t, runFor (5 + 2 * bytes.length + s.cfgTReply + 1) s = .next t ∧
      t.turns = ts ∧ t.requests = rest ∧ t.st = 0#2 ∧ t.rspValid = true ∧ t.rxq = [] ∧
      t.txStream = s.txStream ++ [0xA0#8, a, o, checksum a o] ∧
      t.rspStatus = (if bytes = [] then 3#3 else 4#3) ∧ t.rspCause = (if bytes = [] then 0#2 else 1#2) ∧
      t.rspAddr = 0x00#8 ∧ t.rspOp = 0x00#8 ∧ t.rspLen.toNat = bytes.length ∧
      t.rspBytes = ⟨bytes.getD 0 0x00#8, bytes.getD 1 0x00#8, bytes.getD 2 0x00#8, 0x00#8⟩

/-- R133, R134, R42: the four bytes that are in `rxq` when an ack-class request has sent its frame are its reply, whatever
request they answered: a late reply completes the next request with the older data, and the bytes behind it stay queued.
The session takes them in its own events, in arrival order. -/
def Obligations.QueuedBytesAreTheNextReply : Prop :=
  ∀ (s : State) (a o b0 b1 b2 b3 : Byte) (more : List Byte) (rest : List Request),
    s.reqReady = true → 0x02#8 ≤ o → o ≤ 0x05#8 → s.requests = ⟨a, o⟩ :: rest →
    s.rxq = b0 :: b1 :: b2 :: b3 :: more → s.turns = sendEvents →
    ∃ t, runFor 9 s = .next t ∧ t.st = 0#2 ∧ t.rspValid = true ∧ t.rxq = more ∧
      t.rspLen = 4#3 ∧ t.rspBytes = ⟨b0, b1, b2, b3⟩ ∧
      (∀ a' o', decodeBytes [b0, b1, b2, b3] = .ok a' o' → t.rspStatus = 2#3 ∧ t.rspAddr = a' ∧ t.rspOp = o') ∧
      (∀ c, decodeBytes [b0, b1, b2, b3] = .mf c → t.rspStatus = 4#3 ∧ t.rspCause = causeCode c)

/-- R82, R93: the wait for a reply is bounded: a block in `RX` that is left to its own events and the time base completes
its request within `4 + cfg_t_reply + 1` events. The order of those events is the model's (log 3). -/
def Obligations.TheWaitForAReplyIsBounded : Prop :=
  ∀ s : State, s.st = 2#2 → s.rst = false → s.turns = [] →
    ∃ k t, k ≤ 4 + s.cfgTReply + 1 ∧ runFor k s = .next t ∧ t.st = 0#2 ∧ t.rspValid = true

/-- R16, R95: out of reset `st` walks `IDLE`, `TX`, then `IDLE` or `RX`, then `IDLE`; in flight the request and its frame do
not change and no byte is sent again; a request in flight ends only with a completion, after which the next request may
follow at once (R140). -/
def Obligations.StateOrder : Prop :=
  ∀ s t : State, s.st ≠ 3#2 → step s = .next t → (nextEvent s).ofReset = false →
    (s.st = 0#2 → t.st = 0#2 ∨ t.st = 1#2) ∧
    (s.st = 1#2 → t.st = 1#2 ∨ t.st = 2#2 ∨ t.st = 0#2) ∧
    (s.st = 2#2 → t.st = 2#2 ∨ t.st = 0#2) ∧
    (s.st ≠ 0#2 → t.reqAddr = s.reqAddr ∧ t.reqOp = s.reqOp ∧ t.txbuf = s.txbuf) ∧
    (s.st = 1#2 → t.st = 1#2 → t.txi = s.txi ∨ t.txi = s.txi + 1#3) ∧
    (s.st ≠ 0#2 → t.st = 0#2 → t.rspValid = true ∧ t.reqReady = true)

/-- R104: only `RX` takes bytes out of `rxq`, one at a time and counted by `rxn`, the fourth ending the request; a
fire-and-forget request is never in `RX`. -/
def Obligations.OnlyRxTakesBytes : Prop :=
  ∀ s t : State, SessionInv s → step s = .next t → (nextEvent s).ofReset = false →
    (s.st ≠ 2#2 → ∃ new, t.rxq = s.rxq ++ new) ∧
    (s.st = 1#2 → fireAndForget s.reqOp = true → t.st = 1#2 ∨ t.st = 0#2) ∧
    (s.st = 2#2 → fireAndForget s.reqOp = false) ∧
    (s.st = 2#2 → (∃ new, t.rxq = s.rxq ++ new) ∨
      (∃ v, s.rxq = v :: t.rxq) ∧
        (t.st = 2#2 ∧ t.rxn = s.rxn + 1#3 ∨ s.rxn = 3#3 ∧ t.st = 0#2 ∧ t.rspLen = 4#3))

/-- R105: a request with opcode 0x02 to 0x05 never completes `OK_NOREPLY`; it completes `OK_REPLY`, `NO_RESPONSE` or
`MALFORMED`. -/
def Obligations.AckClassNeverCompletesWithoutReply : Prop :=
  ∀ s t : State, s.st = 1#2 ∨ s.st = 2#2 → 0x02#8 ≤ s.reqOp → s.reqOp ≤ 0x05#8 → s.rspValid = false →
    step s = .next t → t.rspValid = true →
    t.rspStatus ≠ 1#3 ∧ (t.rspStatus = 2#3 ∨ t.rspStatus = 3#3 ∨ t.rspStatus = 4#3)

/-- R106: `NO_RESPONSE` ends only an ack-class request that has sent its frame and taken no byte; `MALFORMED` only one that has
taken at least one; a fire-and-forget request ends only `OK_NOREPLY`. -/
def Obligations.OutcomesFitWhatWasRead : Prop :=
  ∀ s t : State, SessionInv s → s.st ≠ 0#2 → step s = .next t → t.rspValid = true →
    (t.rspStatus = 3#3 → s.st = 2#2 ∧ 0x02#8 ≤ s.reqOp ∧ s.rxn = 0#3 ∧ s.rxq = [] ∧ t.rspLen = 0#3) ∧
    (t.rspStatus = 4#3 → s.st = 2#2 ∧ 0x02#8 ≤ s.reqOp ∧ 1#3 ≤ t.rspLen) ∧
    (fireAndForget s.reqOp = true → t.rspStatus = 1#3)

/-- 10_state.md section 1, the column "written by": moves of the reset line apart, every register changes only in the
events of the rules that write it, from the states those rules name. The response registers change only where a request ends
(`Completes`); `st`, `txi`, `rxn` and `tmr` also where a request is accepted, a byte is sent or taken, or a tick counted.
While `rst = 1` nothing changes but the timeout input. -/
def Obligations.RegistersChangeOnlyByTheirEvents : Prop :=
  ∀ s t : State, step s = .next t → (nextEvent s).ofReset = false →
    (t.st ≠ s.st →
      nextEvent s = .req ∧ s.st = 0#2 ∧ t.st = 1#2 ∨
      nextEvent s = .txAccept ∧ s.st = 1#2 ∧ 3#3 ≤ s.txi ∧ t.st = 2#2 ∨
      Completes s (nextEvent s) ∧ t.st = 0#2) ∧
    (t.reqAddr ≠ s.reqAddr ∨ t.reqOp ≠ s.reqOp ∨ t.txbuf ≠ s.txbuf → nextEvent s = .req ∧ s.st = 0#2 ∧ t.st = 1#2) ∧
    (t.txi ≠ s.txi →
      nextEvent s = .req ∧ s.st = 0#2 ∧ t.st = 1#2 ∧ t.txi = 0#3 ∨
      nextEvent s = .txAccept ∧ s.st = 1#2 ∧ s.txi < 3#3 ∧ t.st = 1#2 ∧ t.txi = s.txi + 1#3 ∨
      nextEvent s = .txAccept ∧ s.st = 1#2 ∧ 3#3 ≤ s.txi ∧ t.st = 2#2 ∧ t.txi = 0#3 ∨
      Completes s (nextEvent s) ∧ t.txi = 0#3) ∧
    (t.rxbuf ≠ s.rxbuf → nextEvent s = .rxTake ∧ s.st = 2#2 ∧ s.rxq ≠ []) ∧
    (t.rxn ≠ s.rxn →
      nextEvent s = .rxTake ∧ s.st = 2#2 ∧ s.rxq ≠ [] ∧ s.rxn < 3#3 ∧ t.st = 2#2 ∧ t.rxn = s.rxn + 1#3 ∨
      nextEvent s = .txAccept ∧ s.st = 1#2 ∧ t.st = 2#2 ∧ t.rxn = 0#3 ∨
      Completes s (nextEvent s) ∧ t.rxn = 0#3) ∧
    (t.tmr ≠ s.tmr →
      nextEvent s = .tick ∧ s.st = 2#2 ∧ s.tmr < s.cfgTReply ∧ t.tmr = s.tmr + 1 ∨
      nextEvent s = .txAccept ∧ s.st = 1#2 ∧ t.st = 2#2 ∧ t.tmr = 0 ∨
      Completes s (nextEvent s) ∧ t.tmr = 0) ∧
    (t.rxq ≠ s.rxq → nextEvent s = .rxTake ∧ s.st = 2#2 ∧ s.rxq ≠ [] ∨ ∃ v, nextEvent s = .rxArrive v) ∧
    (t.rxqOvf ≠ s.rxqOvf → t.rxqOvf = true ∧ ∃ v, nextEvent s = .rxArrive v) ∧
    (t.rspValid ≠ s.rspValid →
      nextEvent s = .req ∧ s.st = 0#2 ∧ t.st = 1#2 ∧ t.rspValid = false ∨
      Completes s (nextEvent s) ∧ t.rspValid = true) ∧
    (t.rspStatus ≠ s.rspStatus ∨ t.rspCause ≠ s.rspCause ∨ t.rspAddr ≠ s.rspAddr ∨ t.rspOp ≠ s.rspOp ∨
      t.rspLen ≠ s.rspLen ∨ t.rspBytes ≠ s.rspBytes →
      Completes s (nextEvent s) ∧ t.rspValid = true ∧ t.st = 0#2) ∧
    t.rst = s.rst ∧ t.rxqDepth = s.rxqDepth ∧
    (s.rst = true → t = { s with turns := s.turns.tail, cfgTReply := t.cfgTReply }) ∧
    (t.cfgTReply ≠ s.cfgTReply → s.rst = true ∧ nextEvent s = .driveCfg t.cfgTReply)

/-- The invariant holds at reset. -/
def Obligations.ResetMeetsTheInvariant : Prop := Inv State.reset

/-- Every step keeps the invariant: the legal values of 10_state.md section 1, the outcome of R26 to R30, R109 and R110, and the
fit of outcome and request of R105 and R106. Its clause `SessionInv.inReset`, that `st` is `IDLE` while `rst = 1`, is the
model's own choice (log 12). -/
def Obligations.StepKeepsTheInvariant : Prop :=
  ∀ s t : State, Inv s → step s = .next t → Inv t

/-- From a state that meets the invariant no event faults, and the one refusal is a host that drives `cfg_t_reply` out of
reset (R17, R109, R31). -/
def Obligations.InvariantStatesDoNotStop : Prop :=
  ∀ s : State, Inv s →
    (∃ t, step s = .next t) ∨
    (s.rst = false ∧ step s = .refused .cfgOutOfReset ∧ ∃ v, nextEvent s = .driveCfg v)

/-- R17: out of reset a block that finds `st = 3` faults, whatever instruction it runs and whatever event of the session
comes (that it faults on every event is the model's reading, log 10), and no step writes the value. -/
def Obligations.IllegalStFaults : Prop :=
  (∀ (s : State) (i : Instr), s.st = 3#2 → s.rst = false → exec i s = .fault .illegalSt) ∧
  (∀ (s : State) (e : Event) (ts : List Event), s.st = 3#2 → s.rst = false → s.turns = e :: ts → e.ofSession = true →
    step s = .fault .illegalSt) ∧
  (∀ s t : State, s.st ≠ 3#2 → step s = .next t → t.st ≠ 3#2)

/-- R109: a host read of `rsp_status` faults on the values 6 and 7, has no effect on any other, and no step writes the two. -/
def Obligations.ReservedStatusFaults : Prop :=
  (∀ (s : State) (ts : List Event), s.turns = .readStatus :: ts →
    (s.rspStatus = 6#3 ∨ s.rspStatus = 7#3 → step s = .fault .reservedStatus) ∧
    (s.rspStatus ≤ 5#3 → step s = .next { s with turns := ts })) ∧
  (∀ s t : State, s.rspStatus ≤ 5#3 → step s = .next t → t.rspStatus ≤ 5#3)

/-! ## Reset and configuration -/

/-- R129: in reset `req_ready` and `tx_valid` are 0, no event of the session happens, a byte delivered is dropped without
setting the overflow bit, and a `TICK` changes nothing; when `rst` falls every register holds its reset value and the block is ready for a
request; reset may be asserted in every state, also in one with a request in flight, which then ends with no completion. -/
def Obligations.ResetAbandonsAndHolds : Prop :=
  (∀ (s : State) (ts : List Event), s.turns = .assertReset :: ts →
    ∃ t, step s = .next t ∧ t.rst = true ∧ t.turns = ts ∧ (s.rspValid = false → t.rspValid = false)) ∧
  (∀ s : State, s.rst = true → s.reqReady = false ∧ s.txValid = false) ∧
  (∀ (s : State) (e : Event) (ts : List Event), s.rst = true → s.turns = e :: ts → e.ofSession = true →
    step s = .next { s with turns := ts }) ∧
  (∀ (s : State) (ts : List Event), s.rst = true → s.turns = .releaseReset :: ts →
    ∃ t, step s = .next t ∧ t.reqReady = true ∧
      t = { State.reset with
        cfgTReply := s.cfgTReply, rxqDepth := s.rxqDepth, requests := s.requests, turns := ts, txStream := s.txStream })

/-- R130: the reset values. -/
def Obligations.ResetValues : Prop :=
  State.reset.st = 0#2 ∧ State.reset.reqAddr = 0x00#8 ∧ State.reset.reqOp = 0x00#8 ∧
  State.reset.txbuf = ⟨0x00#8, 0x00#8, 0x00#8, 0x00#8⟩ ∧ State.reset.txi = 0#3 ∧
  State.reset.rxbuf = ⟨0x00#8, 0x00#8, 0x00#8, 0x00#8⟩ ∧ State.reset.rxn = 0#3 ∧ State.reset.tmr = 0 ∧
  State.reset.rxq = [] ∧ State.reset.rxqOvf = false ∧ State.reset.rspValid = false ∧
  State.reset.rspStatus = 0#3 ∧ State.reset.rspCause = 0#2 ∧ State.reset.rspAddr = 0x00#8 ∧
  State.reset.rspOp = 0x00#8 ∧ State.reset.rspLen = 0#3 ∧
  State.reset.rspBytes = ⟨0x00#8, 0x00#8, 0x00#8, 0x00#8⟩ ∧ State.reset.rst = false ∧ State.reset.reqReady = true

/-- R31, R125: the timeout input changes only while the block is in reset, where the host may drive any value; out of reset
that host is refused (the refusal's form is the model's, log 13). -/
def Obligations.TimeoutInputIsFixedOutOfReset : Prop :=
  (∀ (s : State) (v : Nat) (ts : List Event), s.turns = .driveCfg v :: ts →
    (s.rst = true → step s = .next { s with turns := ts, cfgTReply := v }) ∧
    (s.rst = false → step s = .refused .cfgOutOfReset)) ∧
  (∀ s t : State, s.rst = false → step s = .next t → t.cfgTReply = s.cfgTReply)

/-! ## What the block does not read -/

/-- R108: nothing of the block's state depends on the record of the bytes sent. -/
def Obligations.TheRecordIsNotRead : Prop :=
  ∀ (s t : State) (record : List Byte), step s = .next t →
    ∃ sent, t.txStream = s.txStream ++ sent ∧
      step { s with txStream := record } = .next { t with txStream := record ++ sent }

/-- R28, R30: no rule of the block reads `rsp_cause`, `rsp_addr`, `rsp_op`, `rsp_len` or `rsp_bytes`: with other values there,
every event has the same effect on everything else. -/
def Obligations.TheReportIsNotRead : Prop :=
  ∀ s s' t : State, withoutReport s = withoutReport s' → step s = .next t →
    ∃ t', step s' = .next t' ∧ withoutReport t = withoutReport t'

/-- R130, R24: no rule reads the other registers before it writes them: two states that agree but for the registers that
are stale in their phase go on alike. -/
def Obligations.StaleRegistersAreNotRead : Prop :=
  ∀ s s' t : State, withoutStale s = withoutStale s' → step s = .next t →
    ∃ t', step s' = .next t' ∧ withoutStale t = withoutStale t'
end

