-- ==== Sys2Proof/Laws/Codec.lean ====
section
/-! SUPPORT. The codec's functions in the form proofs use: the checksum as a sum of bytes, ENCODE on a legal and on an
illegal opcode, DECODE by the length of its input, the index operations of a byte array. -/

namespace Sys2Proof

theorem checksum_eq (a o : Byte) : checksum a o = 0xA0#8 + a + o := by
  apply BitVec.eq_of_toNat_eq
  simp [checksum, beginCode, BitVec.extractLsb'_toNat, BitVec.toNat_add, BitVec.toNat_setWidth]

theorem checksum_toNat (a o : Byte) : (checksum a o).toNat = (0xA0 + a.toNat + o.toNat) % 256 := by
  rw [checksum_eq]
  simp [BitVec.toNat_add]

theorem encodeRaw_legal {a o : Byte} (h : o ≤ 0x05#8) :
    encodeRaw a o = some ⟨beginCode, a, o, checksum a o⟩ := by
  simp [encodeRaw, BitVec.not_lt.mpr h]

theorem encodeRaw_illegal {a o : Byte} (h : 0x05#8 < o) : encodeRaw a o = none := by
  simp [encodeRaw, h]

/-- ENCODE answers a frame only for a legal opcode, and then the one frame of R55. -/
theorem encodeRaw_some {a o : Byte} {f : Quad} (h : encodeRaw a o = some f) :
    o ≤ 0x05#8 ∧ f = ⟨beginCode, a, o, checksum a o⟩ := by
  unfold encodeRaw at h
  split at h
  · cases h
  · rename_i hl
    exact ⟨BitVec.not_lt.mp hl, (Option.some.inj h).symm⟩

theorem decodeBytes_short {s : List Byte} (h : s.length ≠ 4) : decodeBytes s = .mf .length := by
  match s with
  | [] | [_] | [_, _] | [_, _, _] => rfl
  | [_, _, _, _] => simp at h
  | _ :: _ :: _ :: _ :: _ :: _ => rfl

/-- DECODE of four bytes: the opcode first, then byte 0 and byte 3 (R73, R74). -/
theorem decodeBytes_four (s0 s1 s2 s3 : Byte) :
    decodeBytes [s0, s1, s2, s3] =
      if 0x05#8 < s2 then .mf .badOpcode
      else if s0 = beginCode ∧ s3 = checksum s1 s2 then .ok s1 s2
      else .mf .mismatch := by
  show (if 0x05#8 < s2 then Decoded.mf .badOpcode
    else if encodeRaw s1 s2 = some ⟨s0, s1, s2, s3⟩ then .ok s1 s2 else .mf .mismatch) = _
  split
  · rfl
  · rename_i h
    rw [encodeRaw_legal (BitVec.not_lt.mp h)]
    simp only [Option.some.injEq, Quad.mk.injEq, true_and, eq_comm]

/-- What DECODE accepts. -/
theorem decodeBytes_ok {s : List Byte} {a o : Byte} (h : decodeBytes s = .ok a o) :
    o ≤ 0x05#8 ∧ s = [beginCode, a, o, checksum a o] := by
  by_cases hl : s.length = 4
  · match s, hl with
    | [s0, s1, s2, s3], _ =>
      rw [decodeBytes_four] at h
      split at h
      · cases h
      · rename_i h5
        split at h
        · rename_i h03
          cases h
          exact ⟨BitVec.not_lt.mp h5, by rw [h03.1, h03.2]⟩
        · cases h
  · rw [decodeBytes_short hl] at h
    cases h

theorem opcode_cases {o : Byte} (h : o ≤ 0x05#8) :
    o = 0x00#8 ∨ o = 0x01#8 ∨ o = 0x02#8 ∨ o = 0x03#8 ∨ o = 0x04#8 ∨ o = 0x05#8 := by
  have h' : o.toNat ≤ 5 := by simpa [BitVec.le_def] using h
  have key : ∀ k : Nat, o.toNat = k → o = BitVec.ofNat 8 k := fun k hk => by
    apply BitVec.eq_of_toNat_eq
    rw [BitVec.toNat_ofNat, ← hk]
    have := o.isLt
    omega
  rcases Nat.lt_or_ge o.toNat 1 with h0 | h0
  · exact .inl (key 0 (by omega))
  rcases Nat.lt_or_ge o.toNat 2 with h1 | h1
  · exact .inr (.inl (key 1 (by omega)))
  rcases Nat.lt_or_ge o.toNat 3 with h2 | h2
  · exact .inr (.inr (.inl (key 2 (by omega))))
  rcases Nat.lt_or_ge o.toNat 4 with h3 | h3
  · exact .inr (.inr (.inr (.inl (key 3 (by omega)))))
  rcases Nat.lt_or_ge o.toNat 5 with h4 | h4
  · exact .inr (.inr (.inr (.inr (.inl (key 4 (by omega))))))
  · exact .inr (.inr (.inr (.inr (.inr (key 5 (by omega))))))

theorem decodeRequest_none {a o : Byte} : decodeRequest a o = none ↔ 0x05#8 < o := by
  constructor
  · intro h
    rcases Decidable.em (0x05#8 < o) with hl | hl
    · exact hl
    · rcases opcode_cases (BitVec.not_lt.mp hl) with h' | h' | h' | h' | h' | h' <;>
        subst h' <;> simp [decodeRequest] at h
  · intro h
    have hne : ∀ k : Byte, k ≤ 0x05#8 → o ≠ k := fun k hk he => by
      subst he
      exact absurd h (BitVec.not_lt.mpr hk)
    simp [decodeRequest, hne 0x00#8 (by decide), hne 0x01#8 (by decide), hne 0x02#8 (by decide),
      hne 0x03#8 (by decide), hne 0x04#8 (by decide), hne 0x05#8 (by decide)]

/-- The opcode map read backwards (R61). -/
theorem decodeRequest_some {a o : Byte} {i : Instr} (h : decodeRequest a o = some i) : i.request = ⟨a, o⟩ := by
  have hl : o ≤ 0x05#8 := by
    rcases Decidable.em (0x05#8 < o) with hl | hl
    · rw [decodeRequest_none.mpr hl] at h
      cases h
    · exact BitVec.not_lt.mp hl
  rcases opcode_cases hl with h' | h' | h' | h' | h' | h' <;> subst h' <;>
    simp [decodeRequest] at h <;> subst h <;> rfl

theorem Instr.request_op_legal (i : Instr) : i.request.op ≤ 0x05#8 := by
  cases i <;> simp [Instr.request, BitVec.le_def]

theorem Instr.encodeRaw_request (i : Instr) : encodeRaw i.request.addr i.request.op = some (encode i) :=
  encodeRaw_legal i.request_op_legal

/-- Bytes read as an instruction are its frame (R76). -/
theorem decode_ok {s : List Byte} {i : Instr} (h : decode s = .ok i) : s = (encode i).toList := by
  unfold decode at h
  split at h
  · cases h
  · rename_i a o hd
    split at h
    · rename_i j hj
      cases h
      obtain ⟨-, hs⟩ := decodeBytes_ok hd
      have hr := decodeRequest_some hj
      simp [hs, encode, Quad.toList, hr]
    · cases h

/-- The bytes of a frame's word are the frame (R41). -/
theorem wordBytes_frameWord (q : Quad) : wordBytes 32 (frameWord q) = q.toList := by
  obtain ⟨b0, b1, b2, b3⟩ := q
  have h0 := b0.isLt
  have h1 := b1.isLt
  have h2 := b2.isLt
  have h3 := b3.isLt
  have key : ∀ (n : Nat) (b : Byte), n % 256 = b.toNat → BitVec.ofNat 8 n = b := fun n b h => by
    apply BitVec.eq_of_toNat_eq
    rw [BitVec.toNat_ofNat]
    exact h
  simp only [wordBytes, wordByte, frameWord, Quad.toList, List.range, List.range.loop, List.map, List.cons.injEq, and_true]
  exact ⟨key _ _ (by omega), key _ _ (by omega), key _ _ (by omega), key _ _ (by omega)⟩

/-- Every word the decoder reads as an instruction is that instruction's frame, its checksum byte too (R55). -/
theorem decodeTableWord_some {nbits w : Nat} {i : Instr} (h : decodeTableWord nbits w = some i) :
    nbits ≤ 32 ∧ wordBytes nbits w = (encode i).toList := by
  unfold decodeTableWord decodeWord at h
  split at h
  · rename_i hd
    split at hd
    · cases h
      exact ⟨‹_›, decode_ok hd⟩
    · cases hd
  · cases h

@[simp] theorem Quad.toList_length (q : Quad) : q.toList.length = 4 := rfl

@[simp] theorem Quad.ofBytes_toList (q : Quad) : Quad.ofBytes q.toList = q := rfl

@[simp] theorem Quad.get_zero (q : Quad) : q.get 0#3 = q.b0 := rfl
@[simp] theorem Quad.get_one (q : Quad) : q.get 1#3 = q.b1 := rfl
@[simp] theorem Quad.get_two (q : Quad) : q.get 2#3 = q.b2 := rfl
@[simp] theorem Quad.get_three (q : Quad) : q.get 3#3 = q.b3 := rfl

@[simp] theorem Quad.set_zero (q : Quad) (v : Byte) : q.set 0#3 v = { q with b0 := v } := rfl
@[simp] theorem Quad.set_one (q : Quad) (v : Byte) : q.set 1#3 v = { q with b1 := v } := rfl
@[simp] theorem Quad.set_two (q : Quad) (v : Byte) : q.set 2#3 v = { q with b2 := v } := rfl
@[simp] theorem Quad.set_three (q : Quad) (v : Byte) : q.set 3#3 v = { q with b3 := v } := rfl

/-- The four values of an index in range. -/
theorem index_cases {i : BitVec 3} (h : i ≤ 3#3) : i = 0#3 ∨ i = 1#3 ∨ i = 2#3 ∨ i = 3#3 := by
  revert h
  revert i
  decide

end Sys2Proof
end

