-- ==== Sys2Proof/Laws/State.lean ====
section
/-! SUPPORT. Every field after every shared update, each true by definition. -/

namespace Sys2Proof.Machine

/-! The codes by their numbers (R17, R109, R110): the one spelling proofs use. -/

@[simp] theorem stIdle_code : stIdle = 0#2 := rfl
@[simp] theorem stTx_code : stTx = 1#2 := rfl
@[simp] theorem stRx_code : stRx = 2#2 := rfl
@[simp] theorem stIllegal_code : stIllegal = 3#2 := rfl
@[simp] theorem statusNone_code : statusNone = 0#3 := rfl
@[simp] theorem statusOkNoReply_code : statusOkNoReply = 1#3 := rfl
@[simp] theorem statusOkReply_code : statusOkReply = 2#3 := rfl
@[simp] theorem statusNoResponse_code : statusNoResponse = 3#3 := rfl
@[simp] theorem statusMalformed_code : statusMalformed = 4#3 := rfl
@[simp] theorem statusInvalidOpcode_code : statusInvalidOpcode = 5#3 := rfl
@[simp] theorem causeNone_code : causeNone = 0#2 := rfl
@[simp] theorem causeLength_code : causeLength = 1#2 := rfl
@[simp] theorem causeBadOpcode_code : causeBadOpcode = 2#2 := rfl
@[simp] theorem causeMismatch_code : causeMismatch = 3#2 := rfl

section
variable (s : State)

@[simp] theorem complete_st (k : BitVec 3) (c : BitVec 2) (a o : Byte) (bs : List Byte) :
    (complete k c a o bs s).st = stIdle := rfl
@[simp] theorem complete_reqAddr (k : BitVec 3) (c : BitVec 2) (a o : Byte) (bs : List Byte) :
    (complete k c a o bs s).reqAddr = s.reqAddr := rfl
@[simp] theorem complete_reqOp (k : BitVec 3) (c : BitVec 2) (a o : Byte) (bs : List Byte) :
    (complete k c a o bs s).reqOp = s.reqOp := rfl
@[simp] theorem complete_txbuf (k : BitVec 3) (c : BitVec 2) (a o : Byte) (bs : List Byte) :
    (complete k c a o bs s).txbuf = s.txbuf := rfl
@[simp] theorem complete_txi (k : BitVec 3) (c : BitVec 2) (a o : Byte) (bs : List Byte) :
    (complete k c a o bs s).txi = 0#3 := rfl
@[simp] theorem complete_rxbuf (k : BitVec 3) (c : BitVec 2) (a o : Byte) (bs : List Byte) :
    (complete k c a o bs s).rxbuf = s.rxbuf := rfl
@[simp] theorem complete_rxn (k : BitVec 3) (c : BitVec 2) (a o : Byte) (bs : List Byte) :
    (complete k c a o bs s).rxn = 0#3 := rfl
@[simp] theorem complete_tmr (k : BitVec 3) (c : BitVec 2) (a o : Byte) (bs : List Byte) :
    (complete k c a o bs s).tmr = 0 := rfl
@[simp] theorem complete_rxq (k : BitVec 3) (c : BitVec 2) (a o : Byte) (bs : List Byte) :
    (complete k c a o bs s).rxq = s.rxq := rfl
@[simp] theorem complete_rxqOvf (k : BitVec 3) (c : BitVec 2) (a o : Byte) (bs : List Byte) :
    (complete k c a o bs s).rxqOvf = s.rxqOvf := rfl
@[simp] theorem complete_rspValid (k : BitVec 3) (c : BitVec 2) (a o : Byte) (bs : List Byte) :
    (complete k c a o bs s).rspValid = true := rfl
@[simp] theorem complete_rspStatus (k : BitVec 3) (c : BitVec 2) (a o : Byte) (bs : List Byte) :
    (complete k c a o bs s).rspStatus = k := rfl
@[simp] theorem complete_rspCause (k : BitVec 3) (c : BitVec 2) (a o : Byte) (bs : List Byte) :
    (complete k c a o bs s).rspCause = c := rfl
@[simp] theorem complete_rspAddr (k : BitVec 3) (c : BitVec 2) (a o : Byte) (bs : List Byte) :
    (complete k c a o bs s).rspAddr = a := rfl
@[simp] theorem complete_rspOp (k : BitVec 3) (c : BitVec 2) (a o : Byte) (bs : List Byte) :
    (complete k c a o bs s).rspOp = o := rfl
@[simp] theorem complete_rspLen (k : BitVec 3) (c : BitVec 2) (a o : Byte) (bs : List Byte) :
    (complete k c a o bs s).rspLen = BitVec.ofNat 3 bs.length := rfl
@[simp] theorem complete_rspBytes (k : BitVec 3) (c : BitVec 2) (a o : Byte) (bs : List Byte) :
    (complete k c a o bs s).rspBytes = Quad.ofBytes bs := rfl
@[simp] theorem complete_cfgTReply (k : BitVec 3) (c : BitVec 2) (a o : Byte) (bs : List Byte) :
    (complete k c a o bs s).cfgTReply = s.cfgTReply := rfl
@[simp] theorem complete_rst (k : BitVec 3) (c : BitVec 2) (a o : Byte) (bs : List Byte) :
    (complete k c a o bs s).rst = s.rst := rfl
@[simp] theorem complete_rxqDepth (k : BitVec 3) (c : BitVec 2) (a o : Byte) (bs : List Byte) :
    (complete k c a o bs s).rxqDepth = s.rxqDepth := rfl
@[simp] theorem complete_requests (k : BitVec 3) (c : BitVec 2) (a o : Byte) (bs : List Byte) :
    (complete k c a o bs s).requests = s.requests := rfl
@[simp] theorem complete_turns (k : BitVec 3) (c : BitVec 2) (a o : Byte) (bs : List Byte) :
    (complete k c a o bs s).turns = s.turns := rfl
@[simp] theorem complete_txStream (k : BitVec 3) (c : BitVec 2) (a o : Byte) (bs : List Byte) :
    (complete k c a o bs s).txStream = s.txStream := rfl

@[simp] theorem acceptRequest_st (a o : Byte) (q : Quad) :
    (acceptRequest a o q s).st = stTx := rfl
@[simp] theorem acceptRequest_reqAddr (a o : Byte) (q : Quad) :
    (acceptRequest a o q s).reqAddr = a := rfl
@[simp] theorem acceptRequest_reqOp (a o : Byte) (q : Quad) :
    (acceptRequest a o q s).reqOp = o := rfl
@[simp] theorem acceptRequest_txbuf (a o : Byte) (q : Quad) :
    (acceptRequest a o q s).txbuf = q := rfl
@[simp] theorem acceptRequest_txi (a o : Byte) (q : Quad) :
    (acceptRequest a o q s).txi = 0#3 := rfl
@[simp] theorem acceptRequest_rxbuf (a o : Byte) (q : Quad) :
    (acceptRequest a o q s).rxbuf = s.rxbuf := rfl
@[simp] theorem acceptRequest_rxn (a o : Byte) (q : Quad) :
    (acceptRequest a o q s).rxn = s.rxn := rfl
@[simp] theorem acceptRequest_tmr (a o : Byte) (q : Quad) :
    (acceptRequest a o q s).tmr = s.tmr := rfl
@[simp] theorem acceptRequest_rxq (a o : Byte) (q : Quad) :
    (acceptRequest a o q s).rxq = s.rxq := rfl
@[simp] theorem acceptRequest_rxqOvf (a o : Byte) (q : Quad) :
    (acceptRequest a o q s).rxqOvf = s.rxqOvf := rfl
@[simp] theorem acceptRequest_rspValid (a o : Byte) (q : Quad) :
    (acceptRequest a o q s).rspValid = false := rfl
@[simp] theorem acceptRequest_rspStatus (a o : Byte) (q : Quad) :
    (acceptRequest a o q s).rspStatus = s.rspStatus := rfl
@[simp] theorem acceptRequest_rspCause (a o : Byte) (q : Quad) :
    (acceptRequest a o q s).rspCause = s.rspCause := rfl
@[simp] theorem acceptRequest_rspAddr (a o : Byte) (q : Quad) :
    (acceptRequest a o q s).rspAddr = s.rspAddr := rfl
@[simp] theorem acceptRequest_rspOp (a o : Byte) (q : Quad) :
    (acceptRequest a o q s).rspOp = s.rspOp := rfl
@[simp] theorem acceptRequest_rspLen (a o : Byte) (q : Quad) :
    (acceptRequest a o q s).rspLen = s.rspLen := rfl
@[simp] theorem acceptRequest_rspBytes (a o : Byte) (q : Quad) :
    (acceptRequest a o q s).rspBytes = s.rspBytes := rfl
@[simp] theorem acceptRequest_cfgTReply (a o : Byte) (q : Quad) :
    (acceptRequest a o q s).cfgTReply = s.cfgTReply := rfl
@[simp] theorem acceptRequest_rst (a o : Byte) (q : Quad) :
    (acceptRequest a o q s).rst = s.rst := rfl
@[simp] theorem acceptRequest_rxqDepth (a o : Byte) (q : Quad) :
    (acceptRequest a o q s).rxqDepth = s.rxqDepth := rfl
@[simp] theorem acceptRequest_requests (a o : Byte) (q : Quad) :
    (acceptRequest a o q s).requests = s.requests := rfl
@[simp] theorem acceptRequest_turns (a o : Byte) (q : Quad) :
    (acceptRequest a o q s).turns = s.turns := rfl
@[simp] theorem acceptRequest_txStream (a o : Byte) (q : Quad) :
    (acceptRequest a o q s).txStream = s.txStream := rfl

@[simp] theorem holdRequest_st (a o : Byte) :
    (holdRequest a o s).st = s.st := rfl
@[simp] theorem holdRequest_reqAddr (a o : Byte) :
    (holdRequest a o s).reqAddr = s.reqAddr := rfl
@[simp] theorem holdRequest_reqOp (a o : Byte) :
    (holdRequest a o s).reqOp = s.reqOp := rfl
@[simp] theorem holdRequest_txbuf (a o : Byte) :
    (holdRequest a o s).txbuf = s.txbuf := rfl
@[simp] theorem holdRequest_txi (a o : Byte) :
    (holdRequest a o s).txi = s.txi := rfl
@[simp] theorem holdRequest_rxbuf (a o : Byte) :
    (holdRequest a o s).rxbuf = s.rxbuf := rfl
@[simp] theorem holdRequest_rxn (a o : Byte) :
    (holdRequest a o s).rxn = s.rxn := rfl
@[simp] theorem holdRequest_tmr (a o : Byte) :
    (holdRequest a o s).tmr = s.tmr := rfl
@[simp] theorem holdRequest_rxq (a o : Byte) :
    (holdRequest a o s).rxq = s.rxq := rfl
@[simp] theorem holdRequest_rxqOvf (a o : Byte) :
    (holdRequest a o s).rxqOvf = s.rxqOvf := rfl
@[simp] theorem holdRequest_rspValid (a o : Byte) :
    (holdRequest a o s).rspValid = s.rspValid := rfl
@[simp] theorem holdRequest_rspStatus (a o : Byte) :
    (holdRequest a o s).rspStatus = s.rspStatus := rfl
@[simp] theorem holdRequest_rspCause (a o : Byte) :
    (holdRequest a o s).rspCause = s.rspCause := rfl
@[simp] theorem holdRequest_rspAddr (a o : Byte) :
    (holdRequest a o s).rspAddr = s.rspAddr := rfl
@[simp] theorem holdRequest_rspOp (a o : Byte) :
    (holdRequest a o s).rspOp = s.rspOp := rfl
@[simp] theorem holdRequest_rspLen (a o : Byte) :
    (holdRequest a o s).rspLen = s.rspLen := rfl
@[simp] theorem holdRequest_rspBytes (a o : Byte) :
    (holdRequest a o s).rspBytes = s.rspBytes := rfl
@[simp] theorem holdRequest_cfgTReply (a o : Byte) :
    (holdRequest a o s).cfgTReply = s.cfgTReply := rfl
@[simp] theorem holdRequest_rst (a o : Byte) :
    (holdRequest a o s).rst = s.rst := rfl
@[simp] theorem holdRequest_rxqDepth (a o : Byte) :
    (holdRequest a o s).rxqDepth = s.rxqDepth := rfl
@[simp] theorem holdRequest_requests (a o : Byte) :
    (holdRequest a o s).requests = ⟨a, o⟩ :: s.requests := rfl
@[simp] theorem holdRequest_turns (a o : Byte) :
    (holdRequest a o s).turns = s.turns := rfl
@[simp] theorem holdRequest_txStream (a o : Byte) :
    (holdRequest a o s).txStream = s.txStream := rfl

@[simp] theorem resetRegisters_st :
    (resetRegisters s).st = 0#2 := rfl
@[simp] theorem resetRegisters_reqAddr :
    (resetRegisters s).reqAddr = 0x00#8 := rfl
@[simp] theorem resetRegisters_reqOp :
    (resetRegisters s).reqOp = 0x00#8 := rfl
@[simp] theorem resetRegisters_txbuf :
    (resetRegisters s).txbuf = ⟨0x00#8, 0x00#8, 0x00#8, 0x00#8⟩ := rfl
@[simp] theorem resetRegisters_txi :
    (resetRegisters s).txi = 0#3 := rfl
@[simp] theorem resetRegisters_rxbuf :
    (resetRegisters s).rxbuf = ⟨0x00#8, 0x00#8, 0x00#8, 0x00#8⟩ := rfl
@[simp] theorem resetRegisters_rxn :
    (resetRegisters s).rxn = 0#3 := rfl
@[simp] theorem resetRegisters_tmr :
    (resetRegisters s).tmr = 0 := rfl
@[simp] theorem resetRegisters_rxq :
    (resetRegisters s).rxq = [] := rfl
@[simp] theorem resetRegisters_rxqOvf :
    (resetRegisters s).rxqOvf = false := rfl
@[simp] theorem resetRegisters_rspValid :
    (resetRegisters s).rspValid = false := rfl
@[simp] theorem resetRegisters_rspStatus :
    (resetRegisters s).rspStatus = 0#3 := rfl
@[simp] theorem resetRegisters_rspCause :
    (resetRegisters s).rspCause = 0#2 := rfl
@[simp] theorem resetRegisters_rspAddr :
    (resetRegisters s).rspAddr = 0x00#8 := rfl
@[simp] theorem resetRegisters_rspOp :
    (resetRegisters s).rspOp = 0x00#8 := rfl
@[simp] theorem resetRegisters_rspLen :
    (resetRegisters s).rspLen = 0#3 := rfl
@[simp] theorem resetRegisters_rspBytes :
    (resetRegisters s).rspBytes = ⟨0x00#8, 0x00#8, 0x00#8, 0x00#8⟩ := rfl
@[simp] theorem resetRegisters_cfgTReply :
    (resetRegisters s).cfgTReply = s.cfgTReply := rfl
@[simp] theorem resetRegisters_rst :
    (resetRegisters s).rst = s.rst := rfl
@[simp] theorem resetRegisters_rxqDepth :
    (resetRegisters s).rxqDepth = s.rxqDepth := rfl
@[simp] theorem resetRegisters_requests :
    (resetRegisters s).requests = s.requests := rfl
@[simp] theorem resetRegisters_turns :
    (resetRegisters s).turns = s.turns := rfl
@[simp] theorem resetRegisters_txStream :
    (resetRegisters s).txStream = s.txStream := rfl

@[simp] theorem assertReset_st :
    (assertReset s).st = 0#2 := rfl
@[simp] theorem assertReset_reqAddr :
    (assertReset s).reqAddr = 0x00#8 := rfl
@[simp] theorem assertReset_reqOp :
    (assertReset s).reqOp = 0x00#8 := rfl
@[simp] theorem assertReset_txbuf :
    (assertReset s).txbuf = ⟨0x00#8, 0x00#8, 0x00#8, 0x00#8⟩ := rfl
@[simp] theorem assertReset_txi :
    (assertReset s).txi = 0#3 := rfl
@[simp] theorem assertReset_rxbuf :
    (assertReset s).rxbuf = ⟨0x00#8, 0x00#8, 0x00#8, 0x00#8⟩ := rfl
@[simp] theorem assertReset_rxn :
    (assertReset s).rxn = 0#3 := rfl
@[simp] theorem assertReset_tmr :
    (assertReset s).tmr = 0 := rfl
@[simp] theorem assertReset_rxq :
    (assertReset s).rxq = [] := rfl
@[simp] theorem assertReset_rxqOvf :
    (assertReset s).rxqOvf = false := rfl
@[simp] theorem assertReset_rspValid :
    (assertReset s).rspValid = false := rfl
@[simp] theorem assertReset_rspStatus :
    (assertReset s).rspStatus = 0#3 := rfl
@[simp] theorem assertReset_rspCause :
    (assertReset s).rspCause = 0#2 := rfl
@[simp] theorem assertReset_rspAddr :
    (assertReset s).rspAddr = 0x00#8 := rfl
@[simp] theorem assertReset_rspOp :
    (assertReset s).rspOp = 0x00#8 := rfl
@[simp] theorem assertReset_rspLen :
    (assertReset s).rspLen = 0#3 := rfl
@[simp] theorem assertReset_rspBytes :
    (assertReset s).rspBytes = ⟨0x00#8, 0x00#8, 0x00#8, 0x00#8⟩ := rfl
@[simp] theorem assertReset_cfgTReply :
    (assertReset s).cfgTReply = s.cfgTReply := rfl
@[simp] theorem assertReset_rst :
    (assertReset s).rst = true := rfl
@[simp] theorem assertReset_rxqDepth :
    (assertReset s).rxqDepth = s.rxqDepth := rfl
@[simp] theorem assertReset_requests :
    (assertReset s).requests = s.requests := rfl
@[simp] theorem assertReset_turns :
    (assertReset s).turns = s.turns := rfl
@[simp] theorem assertReset_txStream :
    (assertReset s).txStream = s.txStream := rfl

@[simp] theorem raiseError_eq (k : BitVec 3) (c : BitVec 2) (bs : List Byte) :
    raiseError k c bs s = complete k c 0x00#8 0x00#8 bs s := rfl

end

end Sys2Proof.Machine
end

