-- ==== Sys2Proof/Laws/Ops.lean ====
section
/-! SUPPORT. What each shared operation can do, said once. -/

namespace Sys2Proof.Machine

theorem reqReady_iff {s : State} : s.reqReady = true ↔ s.rst = false ∧ s.st = stIdle := by
  simp [State.reqReady]

/-- The guard every event shares: the event happens, or the block is in reset and nothing does. -/
theorem whenLive_next {f : State → State} {s t : State} (h : whenLive f s = .next t) :
    s.rst = true ∧ t = s ∨ s.live ∧ t = f s := by
  unfold whenLive at h
  split at h
  · cases h
    exact .inl ⟨‹_›, rfl⟩
  · split at h
    · cases h
    · cases h
      exact .inr ⟨⟨by simpa using ‹¬s.rst = true›, ‹_›⟩, rfl⟩

theorem whenLive_live {f : State → State} {s : State} (h : s.live) : whenLive f s = .next (f s) := by
  simp [whenLive, h.1, h.2]

theorem request_ready {a o : Byte} {s : State} (h : s.reqReady = true) :
    request a o s = .next (takeRequest a o s) := by
  simp [request, h]

/-- A request that meets a next state was taken, or is held with nothing else changed (R84, R85, R86). -/
theorem request_next {a o : Byte} {s t : State} (h : request a o s = .next t) :
    s.reqReady = true ∧ t = takeRequest a o s ∨ s.reqReady = false ∧ t = holdRequest a o s := by
  unfold request at h
  split at h
  · cases h
    exact .inl ⟨‹_›, rfl⟩
  · split at h
    · cases h
    · cases h
      exact .inr ⟨by simpa using ‹¬s.reqReady = true›, rfl⟩

theorem takeRequest_legal {a o : Byte} (s : State) (h : o ≤ 0x05#8) :
    takeRequest a o s = acceptRequest a o ⟨beginCode, a, o, checksum a o⟩ s := by
  simp [takeRequest, encodeRaw_legal h]

theorem takeRequest_illegal {a o : Byte} (s : State) (h : 0x05#8 < o) :
    takeRequest a o s = complete statusInvalidOpcode causeNone 0x00#8 0x00#8 [] s := by
  simp [takeRequest, encodeRaw_illegal h]

/-- Every instruction is its `REQ` event (R96 to R101). -/
theorem exec_eq_request (i : Instr) (s : State) : exec i s = request i.request.addr i.request.op s := by
  cases i <;> rfl

/-- Running a presented request is `REQ` of its address and opcode byte, with a frame or without (R84, R85, R102). -/
theorem runRequest_eq (r : Request) (s : State) : runRequest r s = request r.addr r.op s := by
  unfold runRequest
  cases h : decodeRequest r.addr r.op with
  | none => rfl
  | some i => simp only [exec_eq_request, decodeRequest_some h]

theorem timeoutEnabled_iff {s : State} :
    timeoutEnabled s = true ↔ s.st = stRx ∧ s.rxq = [] ∧ s.cfgTReply ≤ s.tmr := by
  simp [timeoutEnabled, and_assoc]

theorem rxTakeEnabled_iff {s : State} : rxTakeEnabled s = true ↔ s.st = stRx ∧ s.rxq ≠ [] := by
  simp [rxTakeEnabled]

/-- The three things `TX_ACCEPT` can do (R87). -/
theorem sendByte_cases (s : State) :
    s.txi < 3#3 ∧ sendByte s = { s with txStream := s.txStream ++ [s.txData], txi := s.txi + 1#3 } ∨
    ¬s.txi < 3#3 ∧ fireAndForget s.reqOp = true ∧
      sendByte s = complete statusOkNoReply causeNone 0x00#8 0x00#8 [] { s with txStream := s.txStream ++ [s.txData] } ∨
    ¬s.txi < 3#3 ∧ fireAndForget s.reqOp = false ∧
      sendByte s = { s with txStream := s.txStream ++ [s.txData], st := stRx, txi := 0#3, rxn := 0#3, tmr := 0 } := by
  unfold sendByte
  by_cases h : s.txi < 3#3
  · exact .inl ⟨h, by simp [h]⟩
  · cases hf : fireAndForget s.reqOp
    · exact .inr (.inr ⟨h, rfl, by simp [h]⟩)
    · exact .inr (.inl ⟨h, rfl, by simp [h]⟩)

/-- `DECODE_DONE` ends the request, whatever the bytes (R90). -/
theorem decodeDone_cases (bytes : List Byte) (s : State) :
    (∃ a o, decodeBytes bytes = .ok a o ∧ decodeDone bytes s = complete statusOkReply causeNone a o bytes s) ∨
    (∃ c, decodeBytes bytes = .mf c ∧
      decodeDone bytes s = complete statusMalformed (causeCode c) 0x00#8 0x00#8 bytes s) := by
  unfold decodeDone
  cases h : decodeBytes bytes with
  | ok a o => exact .inl ⟨a, o, rfl, rfl⟩
  | mf c => exact .inr ⟨c, rfl, rfl⟩

/-- What an event that gives a next state did. The first constructor covers every event whose guard is false, a request
turned away, and a host read. -/
inductive Effect (s : State) : Event → State → Prop where
  | none (e) : Effect s e s
  | accept (a o : Byte) (rest) : s.requests = ⟨a, o⟩ :: rest → s.reqReady = true → o ≤ 0x05#8 →
      Effect s .req (acceptRequest a o ⟨beginCode, a, o, checksum a o⟩ { s with requests := rest })
  | refuse (a o : Byte) (rest) : s.requests = ⟨a, o⟩ :: rest → s.reqReady = true → 0x05#8 < o →
      Effect s .req (complete statusInvalidOpcode causeNone 0x00#8 0x00#8 [] { s with requests := rest })
  | send : s.live → s.st = stTx → Effect s .txAccept (sendByte s)
  | arrive (v : Byte) : s.live → Effect s (.rxArrive v) (Machine.rxArrive v s)
  | take (v : Byte) (rest) : s.live → s.st = stRx → s.rxq = v :: rest → Effect s .rxTake (takeByte v rest s)
  | count : s.live → s.st = stRx → s.tmr < s.cfgTReply → Effect s .tick { s with tmr := s.tmr + 1 }
  | noResponse : s.live → s.st = stRx → s.rxq = [] → s.cfgTReply ≤ s.tmr → s.rxn = 0#3 →
      Effect s .timeout (complete statusNoResponse causeNone 0x00#8 0x00#8 [] s)
  | shortRead : s.live → s.st = stRx → s.rxq = [] → s.cfgTReply ≤ s.tmr → s.rxn ≠ 0#3 →
      Effect s .timeout (complete statusMalformed causeLength 0x00#8 0x00#8 (s.rxbuf.firstBytes s.rxn) s)
  | assert : Effect s .assertReset (Machine.assertReset s)
  | release : s.rst = true → Effect s .releaseReset { resetRegisters s with rst := false }
  | drive (t : Nat) : s.rst = true → Effect s (.driveCfg t) { s with cfgTReply := t }

theorem presentRequest_effect {s t : State} (h : presentRequest s = .next t) : Effect s .req t := by
  unfold presentRequest at h
  split at h
  · rename_i r rest hr
    obtain ⟨a, o⟩ := r
    rw [runRequest_eq] at h
    rcases request_next h with ⟨hready, rfl⟩ | ⟨-, rfl⟩
    · rcases Decidable.em (0x05#8 < o) with ho | ho
      · rw [takeRequest_illegal _ ho]
        exact .refuse a o rest hr hready ho
      · rw [takeRequest_legal _ (BitVec.not_lt.mp ho)]
        exact .accept a o rest hr hready (BitVec.not_lt.mp ho)
    · have : holdRequest a o { s with requests := rest } = s := by
        cases s
        simp only at hr
        simp [holdRequest, hr]
      rw [this]
      exact .none _
  · rcases whenLive_next h with ⟨-, rfl⟩ | ⟨-, rfl⟩ <;> exact .none _

/-- The inversion of one event: an event that gives a next state did one of these things. -/
theorem runEvent_effect {e : Event} {s t : State} (h : runEvent e s = .next t) : Effect s e t := by
  cases e with
  | req => exact presentRequest_effect h
  | txAccept =>
    rcases whenLive_next h with ⟨-, rfl⟩ | ⟨hl, rfl⟩
    · exact .none _
    · unfold txAccept
      split
      · exact .send hl ‹_›
      · exact .none _
  | rxArrive v =>
    rcases whenLive_next h with ⟨-, rfl⟩ | ⟨hl, rfl⟩
    · exact .none _
    · exact .arrive v hl
  | rxTake =>
    rcases whenLive_next h with ⟨-, rfl⟩ | ⟨hl, rfl⟩
    · exact .none _
    · unfold rxTake
      split
      · split
        · exact .take _ _ hl ‹_› ‹_›
        · exact .none _
      · exact .none _
  | tick =>
    rcases whenLive_next h with ⟨-, rfl⟩ | ⟨hl, rfl⟩
    · exact .none _
    · unfold tick
      split
      · rename_i hg
        exact .count hl hg.1 hg.2
      · exact .none _
  | timeout =>
    rcases whenLive_next h with ⟨-, rfl⟩ | ⟨hl, rfl⟩
    · exact .none _
    · unfold timeout
      split
      · rename_i hg
        obtain ⟨h1, h2, h3⟩ := timeoutEnabled_iff.mp hg
        split
        · exact .noResponse hl h1 h2 h3 ‹_›
        · exact .shortRead hl h1 h2 h3 ‹_›
      · exact .none _
  | assertReset =>
    cases h
    exact .assert
  | releaseReset =>
    cases h
    unfold releaseReset
    split
    · exact .release ‹_›
    · exact .none _
  | driveCfg t' =>
    simp only [runEvent, driveCfg] at h
    split at h
    · cases h
      exact .drive t' ‹_›
    · cases h
  | readStatus =>
    simp only [runEvent, readStatus] at h
    split at h
    · cases h
    · cases h
      exact .none _

end Sys2Proof.Machine
end

