-- ==== Sys2Proof/Laws/PerInstr.lean ====
section
/-! SUPPORT. Statements about every instruction, one lemma per constructor. -/

namespace Sys2Proof.Laws.OpcodeMap

/-- The opcode map is read back: the request an instruction presents decodes to it, its opcode is legal, and its frame
is ENCODE's (R61, R72). -/
def Statement (i : Instr) : Prop :=
  decodeRequest i.request.addr i.request.op = some i ∧ i.request.wellFormed = true ∧
    encodeRaw i.request.addr i.request.op = some (encode i)

theorem off (a : Byte) : Statement (.off a) := ⟨rfl, rfl, Instr.encodeRaw_request _⟩
theorem on (a : Byte) : Statement (.on a) := ⟨rfl, rfl, Instr.encodeRaw_request _⟩
theorem offAck (a : Byte) : Statement (.offAck a) := ⟨rfl, rfl, Instr.encodeRaw_request _⟩
theorem onAck (a : Byte) : Statement (.onAck a) := ⟨rfl, rfl, Instr.encodeRaw_request _⟩
theorem negateAck (a : Byte) : Statement (.negateAck a) := ⟨rfl, rfl, Instr.encodeRaw_request _⟩
theorem queryAck (a : Byte) : Statement (.queryAck a) := ⟨rfl, rfl, Instr.encodeRaw_request _⟩

end Sys2Proof.Laws.OpcodeMap
end

