-- ==== Sys2Proof/Laws/Step.lean ====
section
/-! SUPPORT. The step and runs of steps: which event a step performs, and how a run follows the events its state lists. -/

namespace Sys2Proof.Machine

theorem step_eq (s : State) : step s = runEvent (nextEvent s) { s with turns := s.turns.tail } := by
  unfold step nextEvent
  split
  · rename_i h
    simp [h]
  · rename_i h
    have : ({ s with turns := ([] : List Event).tail } : State) = s := by
      cases s
      simp only at h
      simp [h]
    simp only [h]
    rw [this]

theorem step_turn {s : State} {e : Event} {es : List Event} (h : s.turns = e :: es) :
    step s = runEvent e { s with turns := es } := by
  simp [step, h]

/-- Everything a step that gives a next state can have done. -/
theorem step_effect {s t : State} (h : step s = .next t) :
    Effect { s with turns := s.turns.tail } (nextEvent s) t :=
  runEvent_effect (step_eq s ▸ h)

@[simp] theorem runFor_zero (s : State) : runFor 0 s = .next s := rfl

theorem runFor_succ {k : Nat} {s t : State} (h : step s = .next t) : runFor (k + 1) s = runFor k t := by
  have h' : core.step s = .next t := h
  simp only [runFor, Host.Core.run, h']
  rfl

/-- The first step of a run that gives a next state. -/
theorem runFor_succ_inv {k : Nat} {s u : State} (h : runFor (k + 1) s = .next u) :
    ∃ t, step s = .next t ∧ runFor k t = .next u := by
  simp only [runFor, Host.Core.run] at h
  split at h
  · exact ⟨_, ‹_›, h⟩
  · cases h
  · cases h

theorem runFor_add {j k : Nat} {s t : State} (h : runFor j s = .next t) : runFor (j + k) s = runFor k t := by
  induction j generalizing s with
  | zero =>
    cases h
    simp
  | succ j ih =>
    obtain ⟨u, hstep, hrest⟩ := runFor_succ_inv h
    rw [Nat.add_right_comm, runFor_succ hstep]
    exact ih hrest

/-- Package of an induction over runs: what every step keeps, every run keeps. -/
theorem runFor_keeps {P : State → Prop} (hP : ∀ s t, P s → step s = .next t → P t) {k : Nat} {s t : State}
    (hs : P s) (h : runFor k s = .next t) : P t := by
  induction k generalizing s with
  | zero =>
    cases h
    exact hs
  | succ k ih =>
    obtain ⟨u, hstep, hrest⟩ := runFor_succ_inv h
    exact ih (hP _ _ hs hstep) hrest

end Sys2Proof.Machine
end

