-- ==== Sys2Proof/Tests/Slice0.lean ====
section
/-! SUPPORT. Tests from the spec's own examples and vectors (spec/95_test_vectors.md, spec/opcode_table.json), the smoke test of
WellFormed, and for every statement with hypotheses a state and operands that meet them (`wit_<its name>`). -/

namespace Sys2Proof.Tests

open Sys2Proof.Machine

/-! ## WellFormed: each check refuses an ill-formed term -/

theorem test_request_opcode_06_ill_formed : Request.wellFormed ⟨0x01#8, 0x06#8⟩ = false := by decide
theorem test_request_opcode_ff_ill_formed : Request.wellFormed ⟨0x01#8, 0xFF#8⟩ = false := by decide
theorem test_request_opcode_05_well_formed : Request.wellFormed ⟨0x00#8, 0x05#8⟩ = true := by decide
theorem test_reserved_addresses : usableAddr 0x00#8 = false ∧ usableAddr 0xFE#8 = false ∧ usableAddr 0xFF#8 = false := by decide
theorem test_usable_addresses : usableAddr 0x01#8 = true ∧ usableAddr 0xFD#8 = true := by decide
theorem test_caller_refuses_reserved :
    Instr.callerValid (.off 0x00#8) = false ∧ Instr.callerValid (.on 0xFE#8) = false ∧
    Instr.callerValid (.offAck 0xFF#8) = false ∧ Instr.callerValid (.onAck 0x00#8) = false ∧
    Instr.callerValid (.negateAck 0xFE#8) = false ∧ Instr.callerValid (.queryAck 0xFF#8) = false := by decide
/-- The block itself refuses no address (R66, C3). -/
theorem test_block_takes_reserved : Instr.wellFormed (.onAck 0xFE#8) = true := by decide

/-! ## Decoding: words written out from `10100000aaaaaaaa00000ooocccccccc`, BEGIN, ADDR, OP, CHK (opcode_table.json), with the
checksums of spec/95 section 2.1 -/

/-- `A0 01 00 A1` -/
theorem test_decode_off : decodeTableWord 32 0b10100000_00000001_00000000_10100001 = some (.off 0x01#8) := by decide
/-- `A0 5F 01 00` -/
theorem test_decode_on : decodeTableWord 32 0b10100000_01011111_00000001_00000000 = some (.on 0x5F#8) := by decide
/-- `A0 80 02 22` -/
theorem test_decode_offAck : decodeTableWord 32 0b10100000_10000000_00000010_00100010 = some (.offAck 0x80#8) := by decide
/-- `A0 FE 03 A1` -/
theorem test_decode_onAck : decodeTableWord 32 0b10100000_11111110_00000011_10100001 = some (.onAck 0xFE#8) := by decide
/-- `A0 5A 04 FE` -/
theorem test_decode_negateAck : decodeTableWord 32 0b10100000_01011010_00000100_11111110 = some (.negateAck 0x5A#8) := by decide
/-- `A0 FF 05 A4` -/
theorem test_decode_queryAck : decodeTableWord 32 0b10100000_11111111_00000101_10100100 = some (.queryAck 0xFF#8) := by decide
theorem test_decode_no_opcode : decodeTableWord 32 0xA00106A7 = none := by decide
theorem test_decode_no_begin : decodeTableWord 32 0xA10105A6 = none := by decide
/-- R55: CHK must be the checksum; `A0 01 00 A1` is the frame of OFF 0x01, these are not. -/
theorem test_decode_wrong_checksum : decodeTableWord 32 0xA0010000 = none ∧ decodeTableWord 32 0xA00100A0 = none := by decide

/-- The frames of spec/95 section 2.1, one a row of the opcode table, with the wrap of the checksum. -/
theorem test_encode_frames :
    encode (.off 0x60#8) = ⟨0xA0#8, 0x60#8, 0x00#8, 0x00#8⟩ ∧ encode (.on 0x01#8) = ⟨0xA0#8, 0x01#8, 0x01#8, 0xA2#8⟩ ∧
    encode (.offAck 0x7F#8) = ⟨0xA0#8, 0x7F#8, 0x02#8, 0x21#8⟩ ∧ encode (.onAck 0xFD#8) = ⟨0xA0#8, 0xFD#8, 0x03#8, 0xA0#8⟩ ∧
    encode (.negateAck 0x00#8) = ⟨0xA0#8, 0x00#8, 0x04#8, 0xA4#8⟩ ∧
    encode (.queryAck 0xFE#8) = ⟨0xA0#8, 0xFE#8, 0x05#8, 0xA3#8⟩ := by decide
/-- spec/95 section 2.1, the refusals of ENCODE. -/
theorem test_encode_refuses :
    encodeRaw 0x01#8 0x06#8 = none ∧ encodeRaw 0x01#8 0x80#8 = none ∧ encodeRaw 0x00#8 0xFF#8 = none := by decide
/-- spec/95 section 2.2, the accepted rows. -/
theorem test_decode_bytes_ok :
    decodeBytes [0xA0#8, 0x01#8, 0x05#8, 0xA6#8] = .ok 0x01#8 0x05#8 ∧
    decodeBytes [0xA0#8, 0x5F#8, 0x01#8, 0x00#8] = .ok 0x5F#8 0x01#8 ∧
    decodeBytes [0xA0#8, 0x02#8, 0x02#8, 0xA4#8] = .ok 0x02#8 0x02#8 := by decide
/-- spec/95 section 2.2, the rejected rows. -/
theorem test_decode_bytes_rejects :
    decodeBytes [0x00#8, 0x01#8, 0x05#8, 0xA6#8] = .mf .mismatch ∧
    decodeBytes [0xA0#8, 0x01#8, 0x05#8, 0x00#8] = .mf .mismatch ∧
    decodeBytes [0xA0#8, 0x01#8, 0xFF#8, 0xA0#8] = .mf .badOpcode ∧
    decodeBytes [0x00#8, 0x01#8, 0x80#8, 0x00#8] = .mf .badOpcode ∧
    decodeBytes [] = .mf .length ∧ decodeBytes [0xA0#8, 0x01#8, 0x06#8] = .mf .length := by decide
/-- The instruction decoder refuses by name what DECODE refuses. -/
theorem test_decode_names_the_cause :
    decode [0xA0#8, 0x01#8, 0x06#8, 0xA7#8] = .error .badOpcode ∧ decode [0xA0#8] = .error .length ∧
    decode [0xA0#8, 0x01#8, 0x03#8, 0xA4#8] = .ok (.onAck 0x01#8) := ⟨rfl, rfl, rfl⟩

/-! ## Small states -/

/-- After reset, with `RXQ_DEPTH = 8` as in spec/95 section 3. -/
def idle : State := { State.reset with rxqDepth := 8 }

/-- In `TX` with the frame of `SEND <op>, addr`, its byte `i` shown. -/
def sending (a o : Byte) (i : BitVec 3) : State :=
  { idle with st := 1#2, reqAddr := a, reqOp := o, txbuf := ⟨0xA0#8, a, o, checksum a o⟩, txi := i }

/-- In `RX` for `SEND QUERYACK, 0x01` with `n` bytes of `A0 01 03` taken, `cfg_t_reply = 3`. -/
def waiting (n : BitVec 3) (ticks : Nat) (queue : List Byte) : State :=
  { sending 0x01#8 0x05#8 0#3 with
    st := 2#2, rxbuf := ⟨0xA0#8, 0x01#8, 0x03#8, 0x00#8⟩, rxn := n, tmr := ticks, cfgTReply := 3, rxq := queue }

def inReset : State := { idle with rst := true }

/-- The event `e` next. -/
def turn (e : Event) (s : State) : State := { s with turns := [e] }

/-- The request `(a, o)` on the request port and the host's event next. -/
def asking (a o : Byte) (s : State) : State := { s with requests := [⟨a, o⟩], turns := [.req] }

/-! ## One step of each instruction and event -/

/-- Scenario B: `SEND OFF, 0x01` (spec/95 S1). -/
theorem test_off_accepts : exec (.off 0x01#8) idle = .next (sending 0x01#8 0x00#8 0#3) := rfl
theorem test_off_frame : (sending 0x01#8 0x00#8 3#3).txData = 0xA1#8 := by decide
/-- S3: `SEND ON, 0x5F`; the checksum byte is zero. -/
theorem test_on_accepts : exec (.on 0x5F#8) idle = .next (sending 0x5F#8 0x01#8 0#3) := rfl
theorem test_on_frame : (sending 0x5F#8 0x01#8 3#3).txData = 0x00#8 := by decide
/-- S4. -/
theorem test_offAck_accepts : exec (.offAck 0x01#8) idle = .next (sending 0x01#8 0x02#8 0#3) := rfl
/-- S5. -/
theorem test_onAck_accepts : exec (.onAck 0x01#8) idle = .next (sending 0x01#8 0x03#8 0#3) := rfl
/-- S6. -/
theorem test_negateAck_accepts : exec (.negateAck 0x01#8) idle = .next (sending 0x01#8 0x04#8 0#3) := rfl
/-- S8. -/
theorem test_queryAck_accepts : exec (.queryAck 0x01#8) idle = .next (sending 0x01#8 0x05#8 0#3) := rfl
/-- A fetched word runs as the next step: `A0 01 05 A6`. -/
theorem test_fetch_word_runs : step (idle.withFetchWord 32 0xA00105A6) = .next (sending 0x01#8 0x05#8 0#3) := rfl
/-- A word with a wrong CHK is no frame and presents no request. -/
theorem test_fetch_wrong_checksum : step (idle.withFetchWord 32 0xA0010000) = .next idle := rfl
/-- S12: `SEND.RAW 0xFF, 0x01` completes `INVALID_OPCODE` and sends nothing. -/
theorem test_raw_ff : step (asking 0x01#8 0xFF#8 idle) = .next { idle with rspStatus := 5#3, rspValid := true } := rfl
/-- S13: a second request in `TX` has no step and stays presented. -/
theorem test_busy_request_waits :
    step (asking 0x01#8 0x01#8 (sending 0x01#8 0x00#8 0#3)) =
      .next { sending 0x01#8 0x00#8 0#3 with requests := [⟨0x01#8, 0x01#8⟩] } := rfl
/-- S11: the second `TX_ACCEPT` sends `01`. -/
theorem test_txAccept_second_byte :
    step (turn .txAccept (sending 0x01#8 0x05#8 1#3)) =
      .next { sending 0x01#8 0x05#8 2#3 with txStream := [0x01#8] } := rfl
/-- S2: the fourth `TX_ACCEPT` of OFF completes `OK_NOREPLY` and reads nothing. -/
theorem test_txAccept_ends_off :
    step (turn .txAccept { sending 0x01#8 0x00#8 3#3 with rxq := [0xAA#8] }) =
      .next { sending 0x01#8 0x00#8 0#3 with
        st := 0#2, rxq := [0xAA#8], rspStatus := 1#3, rspValid := true, txStream := [0xA1#8] } := rfl
/-- S11: the fourth `TX_ACCEPT` of QUERYACK enters `RX`. -/
theorem test_txAccept_enters_rx :
    step (turn .txAccept (sending 0x01#8 0x05#8 3#3)) =
      .next { sending 0x01#8 0x05#8 0#3 with st := 2#2, txStream := [0xA6#8] } := rfl
/-- S19: with `RXQ_DEPTH = 4`, the fifth byte is lost. -/
theorem test_rxArrive_overflow :
    step (turn (.rxArrive 0x05#8) { idle with rxqDepth := 4, rxq := [0x01#8, 0x02#8, 0x03#8, 0x04#8] }) =
      .next { idle with rxqDepth := 4, rxq := [0x01#8, 0x02#8, 0x03#8, 0x04#8], rxqOvf := true } := rfl
/-- S8: the fourth byte completes `OK_REPLY` and the fifth stays queued. -/
theorem test_rxTake_fourth :
    step (turn .rxTake (waiting 3#3 0 [0xA4#8, 0xA0#8])) =
      .next { waiting 0#3 0 [0xA0#8] with
        st := 0#2, rxbuf := ⟨0xA0#8, 0x01#8, 0x03#8, 0xA4#8⟩, rspStatus := 2#3, rspAddr := 0x01#8, rspOp := 0x03#8,
        rspLen := 4#3, rspBytes := ⟨0xA0#8, 0x01#8, 0x03#8, 0xA4#8⟩, rspValid := true } := rfl
/-- The same with a wrong checksum byte: `MALFORMED`, `MISMATCH`. -/
theorem test_rxTake_mismatch :
    step (turn .rxTake (waiting 3#3 0 [0xA5#8])) =
      .next { waiting 0#3 0 [] with
        st := 0#2, rxbuf := ⟨0xA0#8, 0x01#8, 0x03#8, 0xA5#8⟩, rspStatus := 4#3, rspCause := 3#2,
        rspLen := 4#3, rspBytes := ⟨0xA0#8, 0x01#8, 0x03#8, 0xA5#8⟩, rspValid := true } := rfl
/-- S15: the timer counts to `cfg_t_reply = 3` and stops there. -/
theorem test_tick_counts_then_stops :
    step (turn .tick (waiting 0#3 2 [])) = .next (waiting 0#3 3 []) ∧
    step (turn .tick (waiting 0#3 3 [])) = .next (waiting 0#3 3 []) := ⟨rfl, rfl⟩
/-- S9: a short read of three bytes. -/
theorem test_timeout_short_read :
    step (turn .timeout (waiting 3#3 3 [])) =
      .next { waiting 0#3 0 [] with
        st := 0#2, rspStatus := 4#3, rspCause := 1#2, rspLen := 3#3, rspBytes := ⟨0xA0#8, 0x01#8, 0x03#8, 0x00#8⟩,
        rspValid := true } := rfl
/-- S16: a queued byte keeps the timeout from firing. -/
theorem test_timeout_waits_for_queue : step (turn .timeout (waiting 0#3 3 [0xA0#8])) = .next (waiting 0#3 3 [0xA0#8]) := rfl
/-- S18: reset in `TX` leaves no completion. -/
theorem test_reset_abandons :
    step (turn .assertReset (sending 0x01#8 0x05#8 2#3)) = .next inReset ∧
    step (turn .releaseReset inReset) = .next idle := ⟨rfl, rfl⟩
/-- S20: `st = 3` faults. -/
theorem test_illegal_st : step (turn .tick { idle with st := 3#2 }) = .fault .illegalSt := rfl
/-- R109: the status 6 faults when read. -/
theorem test_reserved_status : step (turn .readStatus { idle with rspStatus := 6#3 }) = .fault .reservedStatus := rfl
/-- R9, with the reference 0.5 s and a tick of 0.2 s, in milliseconds. -/
theorem test_ticks_for : ticksFor 500 200 = 3 ∧ ticksFor 600 200 = 3 := by decide

/-! ## Witnesses: the hypotheses of each statement are met together -/

theorem wit_DecodeChecksInOrder :
    [0xA0#8, 0x01#8, (0x05#8 : Byte)].length ≠ 4 ∧ [0xA0#8, 0x01#8, 0x05#8, 0xA6#8, (0x00#8 : Byte)].length ≠ 4 ∧
    0x05#8 < (0x06#8 : Byte) ∧
    ((0x05#8 : Byte) ≤ 0x05#8 ∧ encodeRaw 0x01#8 0x05#8 ≠ some ⟨0xA0#8, 0x01#8, 0x05#8, 0xA7#8⟩) ∧
    encodeRaw 0x01#8 0x05#8 = some ⟨0xA0#8, 0x01#8, 0x05#8, 0xA6#8⟩ := by decide

theorem wit_DecodeNeedsBytesZeroAndThree : (0x00#8 : Byte) ≤ 0x05#8 ∧ (0x05#8 : Byte) ≤ 0x05#8 := by decide

theorem wit_DecodeOfEncode : (0x00#8 : Byte) ≤ 0x05#8 ∧ (0x05#8 : Byte) ≤ 0x05#8 := by decide

theorem wit_AcceptedFramesReencode :
    decodeBytes [0xA0#8, 0xFF#8, 0x05#8, 0xA4#8] = .ok 0xFF#8 0x05#8 ∧ decodeBytes [0xA0#8, 0x00#8, 0x00#8, 0xA0#8] = .ok 0x00#8 0x00#8 := by
  decide

theorem wit_EverySingleByteChangeIsRejected :
    (0x05#8 : Byte) ≤ 0x05#8 ∧ (0xA1#8 : Byte) ≠ 0xA0#8 ∧ (0x00#8 : Byte) ≠ 0xFF#8 ∧ (0x06#8 : Byte) ≠ 0x05#8 ∧
    (0x00#8 : Byte) ≠ checksum 0xFF#8 0x05#8 ∧ 7 < 8 := by decide

theorem wit_TwoByteChangesCanGoUndetected :
    (0x03#8 : Byte) ≤ 0x05#8 ∧ (0x03#8 - 0x01#8 : Byte) ≤ 0x05#8 ∧ (0x05#8 - 0x05#8 : Byte) ≤ 0x05#8 := by decide

theorem wit_ChecksumIsABijection : 0 < 6 ∧ 5 < 6 := by decide

theorem wit_DecodeOfEncodeInstr :
    Instr.wellFormed (.queryAck 0xFF#8) = true ∧ encode (.off 0x00#8) = encode (.off 0x00#8) ∧
    decode [0xA0#8, 0x5F#8, 0x01#8, 0x00#8] = .ok (.on 0x5F#8) ∧
    decodeTableWord 32 0xA05F0100 = some (.on 0x5F#8) := ⟨rfl, rfl, rfl, rfl⟩

theorem wit_StepRunsTheDecodedInstruction :
    (asking 0x01#8 0x05#8 idle).turns = [.req] ∧ (asking 0x01#8 0x05#8 idle).requests = [⟨0x01#8, 0x05#8⟩] ∧
    decodeRequest 0x01#8 0x05#8 = some (.queryAck 0x01#8) ∧ decodeRequest 0x01#8 0x06#8 = none ∧
    decodeTableWord 32 0xA00105A6 = some (.queryAck 0x01#8) := by decide

theorem wit_FireAndForgetRequestsAreAccepted : State.reset.reqReady = true := by decide

theorem wit_AckClassRequestsAreAccepted : State.reset.reqReady = true := by decide

theorem wit_RequestIsAccepted :
    (asking 0xFF#8 0x05#8 idle).turns = [.req] ∧ (asking 0xFF#8 0x05#8 idle).requests = [⟨0xFF#8, 0x05#8⟩] ∧
    (asking 0xFF#8 0x05#8 idle).st = 0#2 ∧ (asking 0xFF#8 0x05#8 idle).rst = false ∧ (0x05#8 : Byte) ≤ 0x05#8 := by decide

theorem wit_InvalidOpcodeIsRefused :
    (asking 0x01#8 0x06#8 idle).turns = [.req] ∧ (asking 0x01#8 0x06#8 idle).requests = [⟨0x01#8, 0x06#8⟩] ∧
    (asking 0x01#8 0x06#8 idle).st = 0#2 ∧ (asking 0x01#8 0x06#8 idle).rst = false ∧ 0x05#8 < (0x06#8 : Byte) := by decide

theorem wit_RequestIsHeldWhileBusy :
    (asking 0x01#8 0x01#8 (sending 0x01#8 0x00#8 0#3)).st = 1#2 ∧ (asking 0x01#8 0x06#8 (waiting 0#3 0 [])).st = 2#2 ∧
    (asking 0x01#8 0x06#8 (waiting 0#3 0 [])).turns = [.req] ∧
    (asking 0x01#8 0x06#8 (waiting 0#3 0 [])).requests = [⟨0x01#8, 0x06#8⟩] := by decide

theorem wit_RequestFrame :
    (∃ t, exec (.on 0x01#8) idle = .next t) ∧ idle.reqReady = true ∧
    (∃ t, exec (.on 0x01#8) (waiting 0#3 0 []) = .next t) ∧ (waiting 0#3 0 []).reqReady = false :=
  ⟨⟨_, rfl⟩, rfl, ⟨_, rfl⟩, rfl⟩

theorem wit_TxAcceptSendsTheShownByte :
    (sending 0x01#8 0x05#8 2#3).st = 1#2 ∧ (sending 0x01#8 0x05#8 2#3).txi < 3#3 ∧
    ¬ (sending 0x01#8 0x00#8 3#3).txi < 3#3 ∧ (sending 0x01#8 0x00#8 3#3).rst = false ∧
    (sending 0x01#8 0x00#8 3#3).reqOp = 0x00#8 ∧ (sending 0x01#8 0x02#8 3#3).reqOp = 0x02#8 ∧
    (turn .txAccept (sending 0x01#8 0x00#8 3#3)).turns = [.txAccept] := by decide

theorem wit_FourTxAcceptsCarryTheFrame :
    idle.reqReady = true ∧ encodeRaw 0x01#8 0x05#8 = some ⟨0xA0#8, 0x01#8, 0x05#8, 0xA6#8⟩ ∧
    (∀ e ∈ [Event.txAccept, .rxArrive 0xA0#8, .txAccept, .req, .tick, .txAccept], e.ofSession = true) ∧
    [Event.txAccept, .rxArrive 0xA0#8, .txAccept, .req, .tick, .txAccept].countP Event.isTxAccept = 3 ∧
    encodeRaw 0x01#8 0x06#8 = none ∧ nextEvent (asking 0x01#8 0x06#8 idle) = .req ∧
    (∃ t, step (asking 0x01#8 0x06#8 idle) = .next t) ∧ idle.st ≠ 1#2 ∧ (∃ t, step idle = .next t) :=
  ⟨rfl, rfl, by decide, by decide, rfl, rfl, ⟨_, rfl⟩, by decide, ⟨_, rfl⟩⟩

theorem wit_FireAndForgetRequestsComplete :
    ({ idle with requests := [⟨0x5F#8, 0x01#8⟩], turns := sendEvents } : State).reqReady = true ∧
    ((0x01#8 : Byte) = 0x00#8 ∨ (0x01#8 : Byte) = 0x01#8) ∧
    ({ idle with requests := [⟨0x5F#8, 0x01#8⟩], turns := sendEvents } : State).turns = sendEvents ++ [] := by decide

theorem wit_RxArriveQueuesOrOverflows :
    (turn (.rxArrive 0x00#8) idle).rst = false ∧ (turn (.rxArrive 0x00#8) idle).st ≠ 3#2 ∧
    ([] : List Byte).length < idle.rxqDepth ∧ (List.replicate 7 0x00#8).length < idle.rxqDepth ∧
    idle.rxqDepth ≤ (List.replicate 8 0x00#8).length := by decide

/-- The queue of `idle` full. -/
def full : State := { idle with rxq := List.replicate 8 0x00#8 }

theorem wit_OverflowBitIsSticky :
    full.rxq.length = full.rxqDepth ∧ full.rst = false ∧ full.st ≠ 3#2 ∧
    (∃ t, step (turn (.rxArrive 0x01#8) full) = .next t ∧ full.rxqOvf = false ∧ t.rxqOvf = true) ∧
    (∃ t, step (turn .assertReset { full with rxqOvf := true }) = .next t ∧ t.rxqOvf = false) :=
  ⟨rfl, rfl, by decide, ⟨_, rfl, rfl, rfl⟩, ⟨_, rfl, rfl⟩⟩

theorem wit_RxTakeTakesTheHead :
    (turn .rxTake (waiting 2#3 0 [0x03#8])).turns = [.rxTake] ∧ (waiting 2#3 0 [0x03#8]).st = 2#2 ∧
    (waiting 2#3 0 [0x03#8]).rst = false ∧ (waiting 2#3 0 [0x03#8]).rxn < 3#3 ∧ (waiting 3#3 0 [0xA4#8]).rxn = 3#3 ∧
    (∃ t, step (waiting 2#3 0 [0x03#8]) = .next t ∧ t.rxn = 3#3) ∧
    nextEvent (turn (.rxArrive 0x01#8) (waiting 2#3 2 [])) = .rxArrive 0x01#8 ∧
    (∃ t, step (turn (.rxArrive 0x01#8) (waiting 2#3 2 [])) = .next t) :=
  ⟨rfl, rfl, rfl, by decide, rfl, ⟨_, rfl, rfl⟩, rfl, ⟨_, rfl⟩⟩

theorem wit_FourthByteDecodes :
    (waiting 3#3 0 [0xA4#8]).st = 2#2 ∧ (waiting 3#3 0 [0xA4#8]).rst = false ∧ (waiting 3#3 0 [0xA4#8]).rxn = 3#3 ∧
    decodeBytes [0xA0#8, 0x01#8, 0x03#8, 0xA4#8] = .ok 0x01#8 0x03#8 ∧
    decodeBytes [0xA0#8, 0x01#8, 0x03#8, 0xA5#8] = .mf .mismatch := by decide

theorem wit_ReplyIsNotComparedWithTheRequest :
    (waiting 3#3 0 [0xA4#8]).rst = false ∧ (waiting 3#3 0 [0xA4#8]).st = 2#2 ∧ (waiting 3#3 0 [0xA4#8]).rxn = 3#3 ∧
    (waiting 3#3 0 [0xA4#8]).rxbuf.b0 = 0xA0#8 ∧ (waiting 3#3 0 [0xA4#8]).rxbuf.b1 = 0x01#8 ∧
    (waiting 3#3 0 [0xA4#8]).rxbuf.b2 = 0x03#8 ∧ (waiting 3#3 0 [0xA4#8]).rxq = [checksum 0x01#8 0x03#8] := by decide

theorem wit_TickCountsInRx :
    (turn .tick (waiting 0#3 2 [])).turns = [.tick] ∧ (waiting 0#3 2 []).rst = false ∧ (waiting 0#3 2 []).st = 2#2 ∧
    (waiting 0#3 2 []).tmr < (waiting 0#3 2 []).cfgTReply ∧ (waiting 0#3 3 []).cfgTReply ≤ (waiting 0#3 3 []).tmr ∧
    idle.st = 0#2 ∧ (sending 0x01#8 0x00#8 0#3).st = 1#2 := by decide

theorem wit_TimeoutEndsTheRead :
    (turn .timeout (waiting 0#3 3 [])).turns = [.timeout] ∧ (waiting 0#3 3 []).rst = false ∧
    timeoutEnabled (waiting 0#3 3 []) = true ∧ (waiting 0#3 3 []).rxn = 0#3 ∧
    timeoutEnabled (waiting 1#3 3 []) = true ∧ 1#3 ≤ (waiting 1#3 3 []).rxn ∧
    timeoutEnabled (waiting 3#3 3 []) = true ∧ (waiting 3#3 3 []).rxn ≤ 3#3 := by decide

theorem wit_DisabledEventsHaveNoEffect :
    idle.st ≠ 3#2 ∧ ((turn .txAccept idle).turns = [.txAccept] ∧ (turn .txAccept idle).txValid = false) ∧
    ((turn .rxTake (waiting 0#3 0 [])).turns = [.rxTake] ∧ (waiting 0#3 0 []).rxq = []) ∧
    ((turn .timeout (waiting 0#3 2 [])).turns = [.timeout] ∧ (waiting 0#3 2 []).tmr < (waiting 0#3 2 []).cfgTReply) ∧
    ((turn .req idle).turns = [.req] ∧ (turn .req idle).requests = []) ∧
    ((turn .releaseReset idle).turns = [.releaseReset] ∧ idle.rst = false) := by decide

theorem wit_UntimedModelAdmitsEveryRun :
    ∃ t, runFor 2 { waiting 0#3 3 [] with turns := [.tick, .timeout] } = .next t := ⟨_, rfl⟩

theorem wit_TicksForIsTheCeiling : 0 < 200 ∧ 500 ≤ 3 * 200 := by decide

theorem wit_AckClassRequestsCompleteWithTheReply :
    ({ idle with requests := [⟨0x01#8, 0x05#8⟩], turns := sendEvents ++ deliver [0xA0#8, 0x01#8, 0x03#8, 0xA4#8] } :
      State).reqReady = true ∧
    0x02#8 ≤ (0x05#8 : Byte) ∧ 0x02#8 ≤ (0x02#8 : Byte) ∧ (0x05#8 : Byte) ≤ 0x05#8 ∧ idle.rxq = [] ∧ 4 ≤ idle.rxqDepth := by decide

theorem wit_AckClassRequestsCompleteByTimeout :
    idle.reqReady = true ∧ 0x02#8 ≤ (0x02#8 : Byte) ∧ (0x02#8 : Byte) ≤ 0x05#8 ∧ idle.rxq = [] ∧ 4 ≤ idle.rxqDepth ∧
    ([] : List Byte).length < 4 ∧ [0xA0#8, 0x01#8, (0x03#8 : Byte)].length < 4 := by decide

theorem wit_QueuedBytesAreTheNextReply :
    ({ idle with rxq := [0xA0#8, 0x01#8, 0x03#8, 0xA4#8], requests := [⟨0x01#8, 0x04#8⟩], turns := sendEvents } :
      State).reqReady = true ∧ 0x02#8 ≤ (0x04#8 : Byte) ∧ (0x04#8 : Byte) ≤ 0x05#8 := by decide

theorem wit_TheWaitForAReplyIsBounded :
    (waiting 0#3 0 []).st = 2#2 ∧ (waiting 0#3 0 []).rst = false ∧ (waiting 0#3 0 []).turns = [] := by decide

theorem wit_StateOrder :
    (∃ t, step (asking 0x01#8 0x00#8 idle) = .next t) ∧ (nextEvent (asking 0x01#8 0x00#8 idle)).ofReset = false ∧
    idle.st = 0#2 ∧
    (∃ t, step (turn .txAccept (sending 0x01#8 0x00#8 3#3)) = .next t ∧ t.st = 0#2) ∧
    (∃ t, step (turn .txAccept (sending 0x01#8 0x00#8 2#3)) = .next t ∧ t.st = 1#2) ∧
    (∃ t, step (turn .timeout (waiting 0#3 3 [])) = .next t ∧ t.st = 0#2) :=
  ⟨⟨_, rfl⟩, rfl, rfl, ⟨_, rfl, rfl⟩, ⟨_, rfl, rfl⟩, ⟨_, rfl, rfl⟩⟩

/-- The session invariant holds while a reply is awaited. -/
theorem waiting_session : SessionInv (waiting 2#3 1 [0x03#8]) :=
  ⟨by decide, by decide, by decide, by decide, by decide, by decide, by decide, by decide, by decide, by decide, by decide, by decide,
    by decide⟩

/-- And while a fire-and-forget frame is sent. -/
theorem sending_session : SessionInv (turn .txAccept (sending 0x01#8 0x00#8 3#3)) :=
  ⟨by decide, by decide, by decide, by decide, by decide, by decide, by decide, by decide, by decide, by decide, by decide, by decide,
    by decide⟩

theorem wit_OnlyRxTakesBytes :
    SessionInv (waiting 2#3 1 [0x03#8]) ∧ (∃ t, step (waiting 2#3 1 [0x03#8]) = .next t) ∧
    (nextEvent (waiting 2#3 1 [0x03#8])).ofReset = false ∧ (waiting 2#3 1 [0x03#8]).st = 2#2 ∧
    SessionInv (turn .txAccept (sending 0x01#8 0x00#8 3#3)) ∧
    (∃ t, step (turn .txAccept (sending 0x01#8 0x00#8 3#3)) = .next t) ∧
    fireAndForget (sending 0x01#8 0x00#8 3#3).reqOp = true :=
  ⟨waiting_session, ⟨_, rfl⟩, rfl, rfl, sending_session, ⟨_, rfl⟩, rfl⟩

theorem wit_AckClassNeverCompletesWithoutReply :
    (waiting 0#3 3 []).st = 2#2 ∧ 0x02#8 ≤ (waiting 0#3 3 []).reqOp ∧ (waiting 0#3 3 []).reqOp ≤ 0x05#8 ∧
    (waiting 0#3 3 []).rspValid = false ∧ (∃ t, step (waiting 0#3 3 []) = .next t ∧ t.rspValid = true) :=
  ⟨rfl, by decide, by decide, rfl, ⟨_, rfl, rfl⟩⟩

/-- The session invariant holds when the timeout is due and no byte has been taken. -/
theorem due_none_session : SessionInv (waiting 0#3 3 []) :=
  ⟨by decide, by decide, by decide, by decide, by decide, by decide, by decide, by decide, by decide, by decide, by decide, by decide,
    by decide⟩

/-- And when one has. -/
theorem due_one_session : SessionInv (waiting 1#3 3 []) :=
  ⟨by decide, by decide, by decide, by decide, by decide, by decide, by decide, by decide, by decide, by decide, by decide, by decide,
    by decide⟩

theorem wit_OutcomesFitWhatWasRead :
    (SessionInv (waiting 0#3 3 []) ∧ (waiting 0#3 3 []).st ≠ 0#2 ∧
      ∃ t, step (waiting 0#3 3 []) = .next t ∧ t.rspValid = true ∧ t.rspStatus = 3#3) ∧
    (SessionInv (waiting 1#3 3 []) ∧ ∃ t, step (waiting 1#3 3 []) = .next t ∧ t.rspValid = true ∧ t.rspStatus = 4#3) ∧
    (SessionInv (turn .txAccept (sending 0x01#8 0x00#8 3#3)) ∧ fireAndForget (sending 0x01#8 0x00#8 3#3).reqOp = true ∧
      ∃ t, step (turn .txAccept (sending 0x01#8 0x00#8 3#3)) = .next t ∧ t.rspValid = true) :=
  ⟨⟨due_none_session, by decide, _, rfl, rfl, rfl⟩, ⟨due_one_session, _, rfl, rfl, rfl⟩,
    ⟨sending_session, rfl, _, rfl, rfl⟩⟩

theorem wit_RegistersChangeOnlyByTheirEvents :
    (∃ t, step (asking 0x01#8 0x05#8 idle) = .next t ∧ t.st ≠ idle.st ∧ t.reqOp ≠ idle.reqOp) ∧
    (nextEvent (asking 0x01#8 0x05#8 idle)).ofReset = false ∧
    (∃ t, step (turn .txAccept (sending 0x01#8 0x05#8 2#3)) = .next t ∧ t.txi ≠ 2#3) ∧
    (∃ t, step (turn .txAccept (sending 0x01#8 0x05#8 3#3)) = .next t ∧ t.txi ≠ 3#3 ∧ t.st ≠ 1#2) ∧
    (∃ t, step (turn .rxTake (waiting 0#3 0 [0x55#8])) = .next t ∧
      t.rxbuf ≠ (waiting 0#3 0 []).rxbuf ∧ t.rxn ≠ 0#3 ∧ t.rxq ≠ [0x55#8]) ∧
    (∃ t, step (turn .tick (waiting 0#3 2 [])) = .next t ∧ t.tmr ≠ 2) ∧
    (∃ t, step (turn (.rxArrive 0x01#8) full) = .next t ∧ t.rxqOvf ≠ full.rxqOvf) ∧
    (∃ t, step (turn .timeout (waiting 1#3 3 [])) = .next t ∧ t.rspValid ≠ false ∧ t.rspStatus ≠ 0#3 ∧ t.rxn ≠ 1#3) ∧
    (∃ t, step (turn (.driveCfg 7) inReset) = .next t ∧ t.cfgTReply ≠ inReset.cfgTReply ∧ inReset.rst = true) :=
  ⟨⟨_, rfl, by decide, by decide⟩, rfl, ⟨_, rfl, by decide⟩, ⟨_, rfl, by decide, by decide⟩,
    ⟨_, rfl, by decide, by decide, by decide⟩, ⟨_, rfl, by decide⟩, ⟨_, rfl, by decide⟩,
    ⟨_, rfl, by decide, by decide, by decide⟩, ⟨_, rfl, by decide, rfl⟩⟩

/-- Each way a request ends has a state. -/
theorem wit_Completes :
    Completes (asking 0x01#8 0x06#8 idle) .req ∧ Completes (sending 0x01#8 0x01#8 3#3) .txAccept ∧
    Completes (waiting 3#3 0 [0xA4#8]) .rxTake ∧ Completes (waiting 0#3 3 []) .timeout :=
  ⟨.refused rfl ⟨_, rfl, by decide⟩, .sent rfl (by decide) rfl, .taken rfl (by decide) (by decide),
    .elapsed rfl rfl (by decide)⟩

/-- The whole invariant, after a malformed reply of one byte. -/
theorem malformed_inv :
    Inv { idle with
      rspValid := true, rspStatus := 4#3, rspCause := 1#2, rspLen := 1#3, rspBytes := ⟨0xA0#8, 0x00#8, 0x00#8, 0x00#8⟩,
      reqOp := 0x05#8 } :=
  ⟨⟨by decide, by decide, by decide, by decide, by decide, by decide, by decide, by decide, by decide, by decide, by decide, by decide,
      by decide⟩,
    ⟨by decide, by decide, by decide, by decide, by decide, fun _ => ⟨by decide, .length, rfl, rfl⟩, by decide, by decide, by decide⟩,
    ⟨by decide, by decide⟩⟩

theorem wit_StepKeepsTheInvariant :
    ∃ s t, Inv s ∧ s.rspStatus = 4#3 ∧ step s = .next t := ⟨_, _, malformed_inv, rfl, rfl⟩

theorem wit_InvariantStatesDoNotStop : ∃ s, Inv s ∧ s.rst = false := ⟨_, malformed_inv, rfl⟩

theorem wit_IllegalStFaults :
    (turn (.rxArrive 0x00#8) { idle with st := 3#2 }).st = 3#2 ∧ (turn (.rxArrive 0x00#8) { idle with st := 3#2 }).rst = false ∧
    Event.ofSession (.rxArrive 0x00#8) = true ∧ idle.st ≠ 3#2 ∧ (∃ t, step idle = .next t) :=
  ⟨rfl, rfl, rfl, by decide, ⟨_, rfl⟩⟩

theorem wit_ReservedStatusFaults :
    (turn .readStatus { idle with rspStatus := 6#3 }).rspStatus = 6#3 ∧ (turn .readStatus { idle with rspStatus := 7#3 }).rspStatus = 7#3 ∧
    (turn .readStatus { idle with rspStatus := 5#3 }).rspStatus ≤ 5#3 ∧ (turn .readStatus idle).turns = [.readStatus] ∧
    (∃ t, step idle = .next t) := ⟨rfl, rfl, by decide, rfl, ⟨_, rfl⟩⟩

theorem wit_ResetAbandonsAndHolds :
    (turn .assertReset (sending 0x01#8 0x05#8 2#3)).turns = [.assertReset] ∧ (sending 0x01#8 0x05#8 2#3).rspValid = false ∧
    inReset.rst = true ∧ (turn (.rxArrive 0x00#8) inReset).turns = [.rxArrive 0x00#8] ∧
    (turn .releaseReset inReset).turns = [.releaseReset] := by decide

theorem wit_TimeoutInputIsFixedOutOfReset :
    (turn (.driveCfg 7) inReset).rst = true ∧ (turn (.driveCfg 7) idle).rst = false ∧ (turn (.driveCfg 7) idle).turns = [.driveCfg 7] ∧
    (∃ t, step idle = .next t) := ⟨rfl, rfl, rfl, ⟨_, rfl⟩⟩

theorem wit_TheRecordIsNotRead : ∃ t, step (turn .txAccept (sending 0x01#8 0x05#8 0#3)) = .next t := ⟨_, rfl⟩

theorem wit_TheReportIsNotRead :
    withoutReport idle = withoutReport { idle with rspCause := 3#2, rspLen := 4#3 } ∧
    (∃ t, step (asking 0x01#8 0x05#8 idle) = .next t) ∧ (asking 0x01#8 0x05#8 idle).rspLen ≠ 4#3 := ⟨rfl, ⟨_, rfl⟩, by decide⟩

theorem wit_StaleRegistersAreNotRead :
    withoutStale idle = withoutStale { idle with reqOp := 0x05#8, txi := 2#3, tmr := 9 } ∧
    withoutStale (waiting 1#3 0 []) = withoutStale { waiting 1#3 0 [] with rxbuf := ⟨0xA0#8, 0xFF#8, 0xFF#8, 0xFF#8⟩ } ∧
    (∃ t, step (waiting 1#3 0 []) = .next t) := ⟨rfl, rfl, ⟨_, rfl⟩⟩

end Sys2Proof.Tests
end

namespace Sys2Proof.Machine

/-- The Galois connection that characterises the ceiling: a number `n` of ticks reaches `ticksFor` exactly when `n` ticks
last `T_REPLY` (R9). -/
theorem ticksFor_le_iff {tReply tick n : Nat} (htick : 0 < tick) :
    ticksFor tReply tick ≤ n ↔ tReply ≤ n * tick := by
  rw [ticksFor, Nat.div_le_iff_le_mul_add_pred htick, Nat.add_le_add_iff_right, Nat.mul_comm]

/-- Settles O31: `ticksFor` lasts long enough as it is at most itself, and is the least such number, by the two directions
of `ticksFor_le_iff`. -/
theorem ticksForIsTheCeiling : Obligations.TicksForIsTheCeiling := by
  intro tReply tick htick
  exact ⟨(ticksFor_le_iff htick).mp le_rfl, fun _ => (ticksFor_le_iff htick).mpr⟩

end Sys2Proof.Machine

namespace Sys2Proof

/-- The bytes a response reports, read back by index (R30). -/
theorem Quad.get_ofBytes (s : List Byte) {i : BitVec 3} (h : i ≤ 3#3) :
    (Quad.ofBytes s).get i = s.getD i.toNat 0x00#8 := by
  rcases index_cases h with rfl | rfl | rfl | rfl <;> rfl

/-- An array holds the first bytes of a sequence of at most four unchanged. -/
theorem Quad.firstBytes_ofBytes {s : List Byte} (h : s.length ≤ 4) :
    (Quad.ofBytes s).firstBytes (BitVec.ofNat 3 s.length) = s := by
  match s with
  | [] | [_] | [_, _] | [_, _, _] | [_, _, _, _] => rfl
  | _ :: _ :: _ :: _ :: _ :: _ => simp only [List.length_cons] at h; omega

theorem Quad.firstBytes_length {n : BitVec 3} (q : Quad) (h : n ≤ 3#3) : (q.firstBytes n).length = n.toNat := by
  rcases index_cases h with rfl | rfl | rfl | rfl <;> rfl

/-- A length of at most four fits `rsp_len`. -/
theorem rspLen_toNat {n : Nat} (h : n ≤ 4) : (BitVec.ofNat 3 n).toNat = n := by
  rw [BitVec.toNat_ofNat]
  omega

end Sys2Proof

namespace Sys2Proof.Machine

/-! ### What the receive events can do -/

/-- `RX_ARRIVE` queues the byte, or loses it and sets the overflow bit (R88, R23). -/
theorem rxArrive_cases (v : Byte) (s : State) :
    s.rxq.length < s.rxqDepth ∧ rxArrive v s = { s with rxq := s.rxq ++ [v] } ∨
    s.rxqDepth ≤ s.rxq.length ∧ rxArrive v s = { s with rxqOvf := true } := by
  unfold rxArrive
  split
  · exact .inl ⟨‹_›, rfl⟩
  · exact .inr ⟨Nat.le_of_not_lt ‹_›, rfl⟩

/-- `RX_TAKE` counts one of the first three bytes, or hands the fourth to `DECODE_DONE` with them (R89, R90). -/
theorem takeByte_cases (v : Byte) (rest : List Byte) (s : State) :
    s.rxn < 3#3 ∧ takeByte v rest s = { s with rxq := rest, rxbuf := s.rxbuf.set s.rxn v, rxn := s.rxn + 1#3 } ∨
    3#3 ≤ s.rxn ∧ takeByte v rest s =
      decodeDone [s.rxbuf.b0, s.rxbuf.b1, s.rxbuf.b2, v] { s with rxq := rest, rxbuf := s.rxbuf.set s.rxn v } := by
  unfold takeByte
  split
  · exact .inl ⟨‹_›, rfl⟩
  · exact .inr ⟨BitVec.not_lt.mp ‹_›, rfl⟩

/-! ### The invariant of the block

No part of `Inv` reads the agents' lists or `txStream`. A request that ends goes through `complete`, so what a completion
establishes is said once per outcome. -/

section
variable {s : State}

/-- A completion leaves the session idle, and the queue as it was (R83). -/
theorem SessionInv.complete (h : SessionInv s) (k : BitVec 3) (c : BitVec 2) (a o : Byte) (bs : List Byte) :
    SessionInv (complete k c a o bs s) := by
  constructor <;> simp [h.depth, h.queue]

/-- The report of any completion shows the bytes read, padded with 0x00 (R30). -/
theorem complete_padding {k : BitVec 3} {c : BitVec 2} {a o : Byte} {bs : List Byte} (hbs : bs.length ≤ 4) (i : BitVec 3)
    (hlen : (complete k c a o bs s).rspLen ≤ i) (hi : i ≤ 3#3) : (complete k c a o bs s).rspBytes.get i = 0x00#8 := by
  have hle : bs.length ≤ i.toNat := by
    simpa [BitVec.le_def, rspLen_toNat hbs] using hlen
  rw [complete_rspBytes, Quad.get_ofBytes bs hi, List.getD_eq_default _ _ hle]

theorem complete_lenRange {k : BitVec 3} {c : BitVec 2} {a o : Byte} {bs : List Byte} (hbs : bs.length ≤ 4) :
    (complete k c a o bs s).rspLen ≤ 4#3 := by
  simpa [BitVec.le_def, rspLen_toNat hbs] using hbs

/-- An outcome that reports no byte: `OK_NOREPLY`, `NO_RESPONSE` and `INVALID_OPCODE` (R85, R87, R93). -/
theorem responseInv_complete_nil {k : BitVec 3} (hk : k = 1#3 ∨ k = 3#3 ∨ k = 5#3) :
    ResponseInv (complete k causeNone 0x00#8 0x00#8 [] s) := by
  have hk' : k ≤ 5#3 ∧ k ≠ 0#3 ∧ k ≠ 2#3 ∧ k ≠ 4#3 := by rcases hk with rfl | rfl | rfl <;> decide
  obtain ⟨hle, hnone, hreply, hmalformed⟩ := hk'
  exact {
    status := hle
    completed := fun _ => hnone
    cause := fun _ => rfl
    noReply := fun _ => ⟨rfl, rfl⟩
    reply := fun h => absurd h hreply
    malformed := fun h => absurd h hmalformed
    lenRange := complete_lenRange (by simp)
    lenZero := fun _ _ => rfl
    padding := complete_padding (by simp) }

/-- The outcome `OK_REPLY` of bytes DECODE accepts (R90). -/
theorem responseInv_complete_reply {a o : Byte} {bs : List Byte} (h : decodeBytes bs = .ok a o) :
    ResponseInv (complete statusOkReply causeNone a o bs s) := by
  obtain ⟨-, rfl⟩ := decodeBytes_ok h
  exact {
    status := by simp
    completed := by simp
    cause := by simp
    noReply := by simp
    reply := fun _ => ⟨rfl, h⟩
    malformed := by simp
    lenRange := complete_lenRange (by simp)
    lenZero := by simp
    padding := complete_padding (by simp) }

/-- The outcome `MALFORMED` of one to four bytes DECODE refuses, by its cause (R90, R93, R110). -/
theorem responseInv_complete_malformed {bs : List Byte} {c : Malformed} (h : decodeBytes bs = .mf c)
    (hpos : 1 ≤ bs.length) (hbs : bs.length ≤ 4) :
    ResponseInv (complete statusMalformed (causeCode c) 0x00#8 0x00#8 bs s) where
  status := by simp
  completed := by simp
  cause := by simp
  noReply := by simp
  reply := by simp
  malformed := fun _ => ⟨by simpa [BitVec.le_def, rspLen_toNat hbs] using hpos,
    c, rfl, by rw [complete_rspBytes, complete_rspLen, Quad.firstBytes_ofBytes hbs, h]⟩
  lenRange := complete_lenRange hbs
  lenZero := by simp
  padding := complete_padding hbs

/-- The opcodes that await a reply are not fire-and-forget (R61). -/
theorem ackClass_of_not_fireAndForget {o : Byte} (h : o ≤ 0x05#8) (hf : fireAndForget o = false) :
    0x02#8 ≤ o ∧ o ≤ 0x05#8 := by
  rcases opcode_cases h with rfl | rfl | rfl | rfl | rfl | rfl <;> revert hf <;> decide

/-- An outcome that only an ack-class request can have fits an ack-class request (R106). -/
theorem outcomeInv_complete_ackClass {k : BitVec 3} {c : BitVec 2} {a o : Byte} {bs : List Byte} (hk : k ≠ 1#3)
    (hop : 0x02#8 ≤ s.reqOp ∧ s.reqOp ≤ 0x05#8) : OutcomeInv (complete k c a o bs s) where
  fireAndForget := fun _ h => absurd h hk
  ackClass := fun _ _ => hop

/-- While no outcome is valid there is nothing to fit. -/
theorem outcomeInv_of_not_valid (h : s.rspValid = false) : OutcomeInv s where
  fireAndForget := fun hv => by simp [h] at hv
  ackClass := fun hv => by simp [h] at hv

/-- The registers at their reset values meet the invariant, whatever the reset line (R130). -/
theorem inv_resetRegisters (h : 4 ≤ s.rxqDepth) (b : Bool) : Inv { resetRegisters s with rst := b } where
  session := by constructor <;> simp [h]
  response := by
    constructor
    case padding => exact fun i _ hi => by rcases index_cases hi with rfl | rfl | rfl | rfl <;> rfl
    all_goals simp
  outcome := outcomeInv_of_not_valid rfl

/-- The invariant does not read the agents' lists (log 2, 4). -/
theorem Inv.withTurns (h : Inv s) (es : List Event) : Inv { s with turns := es } :=
  ⟨{ h.session with }, { h.response with }, { h.outcome with }⟩

theorem Inv.withRequests (h : Inv s) (rs : List Request) : Inv { s with requests := rs } :=
  ⟨{ h.session with }, { h.response with }, { h.outcome with }⟩

/-- The invariant does not read the record of bytes sent (R108; log 14). -/
theorem Inv.withTxStream (h : Inv s) (bs : List Byte) : Inv { s with txStream := bs } :=
  ⟨{ h.session with }, { h.response with }, { h.outcome with }⟩

/-- A smaller queue and another content of `rxbuf` are as legal. -/
theorem Inv.withTaken (h : Inv s) {v : Byte} {rest : List Byte} (hq : s.rxq = v :: rest) (buf : Quad) :
    Inv { s with rxq := rest, rxbuf := buf } :=
  ⟨{ h.session with
      queue := by
        have hle := h.session.queue
        rw [hq, List.length_cons] at hle
        exact Nat.le_of_succ_le hle },
    { h.response with }, { h.outcome with }⟩

/-- R84 keeps the invariant. -/
theorem Inv.acceptRequest (h : Inv s) (hready : s.reqReady = true) {a o : Byte} (ho : o ≤ 0x05#8) :
    Inv (acceptRequest a o ⟨beginCode, a, o, checksum a o⟩ s) := by
  obtain ⟨hrst, hst⟩ := reqReady_iff.mp hready
  have hrx : s.st ≠ stRx := by simp [hst]
  exact {
    session := { h.session with
      legal := by simp
      txiRange := by simp
      txiIdle := by simp
      rxnIdle := fun _ => h.session.rxnIdle hrx
      tmrIdle := fun _ => h.session.tmrIdle hrx
      frame := fun _ => encodeRaw_legal ho
      ackOnly := by simp
      inFlight := by simp
      inReset := by simp [hrst] }
    response := { h.response with completed := by simp }
    outcome := outcomeInv_of_not_valid rfl }

/-- R85 keeps the invariant. -/
theorem Inv.refuseRequest (h : Inv s) : Inv (complete statusInvalidOpcode causeNone 0x00#8 0x00#8 [] s) where
  session := h.session.complete ..
  response := responseInv_complete_nil (by simp)
  outcome := ⟨by simp, by simp⟩

/-- R87 keeps the invariant: the frame in `txbuf` says the opcode is legal, so one that is not fire-and-forget is ack-class. -/
theorem Inv.sendByte (h : Inv s) (hrst : s.rst = false) (hst : s.st = stTx) : Inv (sendByte s) := by
  have hvalid : s.rspValid = false := h.session.inFlight (by simp [hst])
  have hrec := h.withTxStream (s.txStream ++ [s.txData])
  rcases sendByte_cases s with ⟨hi, heq⟩ | ⟨-, hf, heq⟩ | ⟨-, hf, heq⟩ <;> rw [heq]
  · exact {
      session := { hrec.session with
        txiRange := by bv_omega
        txiIdle := fun hne => absurd hst hne }
      response := { h.response with }
      outcome := outcomeInv_of_not_valid hvalid }
  · exact {
      session := hrec.session.complete ..
      response := responseInv_complete_nil (by simp)
      outcome := ⟨fun _ _ => hf, by simp⟩ }
  · obtain ⟨hop, -⟩ := encodeRaw_some (h.session.frame hst)
    exact {
      session := { hrec.session with
        legal := by simp
        txiRange := by simp
        txiIdle := by simp
        rxnRange := by simp
        rxnIdle := by simp
        tmrRange := by simp
        tmrIdle := by simp
        frame := by simp
        ackOnly := fun _ => ackClass_of_not_fireAndForget hop hf
        inFlight := fun _ => hvalid
        inReset := by simp [hrst] }
      response := { h.response with }
      outcome := outcomeInv_of_not_valid hvalid }

/-- R88 keeps the invariant: a byte is queued only where there is room. -/
theorem Inv.rxArrive (h : Inv s) (v : Byte) : Inv (rxArrive v s) := by
  rcases rxArrive_cases v s with ⟨hroom, heq⟩ | ⟨-, heq⟩ <;> rw [heq]
  · exact ⟨{ h.session with queue := by simpa using hroom }, { h.response with }, { h.outcome with }⟩
  · exact ⟨{ h.session with }, { h.response with }, { h.outcome with }⟩

/-- R90 keeps the invariant: four bytes end an ack-class request as DECODE judges them. -/
theorem Inv.decodeDone (h : Inv s) (hst : s.st = stRx) {bytes : List Byte} (hlen : bytes.length = 4) :
    Inv (decodeDone bytes s) := by
  have hop := h.session.ackOnly hst
  rcases decodeDone_cases bytes s with ⟨a, o, hd, heq⟩ | ⟨c, hd, heq⟩ <;> rw [heq]
  · exact ⟨h.session.complete .., responseInv_complete_reply hd, outcomeInv_complete_ackClass (by simp) hop⟩
  · exact ⟨h.session.complete .., responseInv_complete_malformed hd (by omega) (by omega),
      outcomeInv_complete_ackClass (by simp) hop⟩

/-- R89 keeps the invariant. -/
theorem Inv.takeByte (h : Inv s) (hst : s.st = stRx) {v : Byte} {rest : List Byte} (hq : s.rxq = v :: rest) :
    Inv (takeByte v rest s) := by
  have htaken := h.withTaken hq (s.rxbuf.set s.rxn v)
  rcases takeByte_cases v rest s with ⟨hn, heq⟩ | ⟨-, heq⟩ <;> rw [heq]
  · exact {
      session := { htaken.session with
        rxnRange := by bv_omega
        rxnIdle := fun hne => absurd hst hne }
      response := { h.response with }
      outcome := { h.outcome with } }
  · exact htaken.decodeDone hst rfl

/-- R92 keeps the invariant: the timer stops at `cfg_t_reply`. -/
theorem Inv.tick (h : Inv s) (hst : s.st = stRx) (hlt : s.tmr < s.cfgTReply) : Inv { s with tmr := s.tmr + 1 } :=
  ⟨{ h.session with
      tmrRange := hlt
      tmrIdle := fun hne => absurd hst hne },
    { h.response with }, { h.outcome with }⟩

/-- R93 with no byte taken keeps the invariant. -/
theorem Inv.noResponse (h : Inv s) (hst : s.st = stRx) :
    Inv (complete statusNoResponse causeNone 0x00#8 0x00#8 [] s) :=
  ⟨h.session.complete .., responseInv_complete_nil (by simp),
    outcomeInv_complete_ackClass (by simp) (h.session.ackOnly hst)⟩

/-- R93 with one to three bytes taken keeps the invariant: DECODE refuses them by their length. -/
theorem Inv.shortRead (h : Inv s) (hst : s.st = stRx) (hn : s.rxn ≠ 0#3) :
    Inv (complete statusMalformed causeLength 0x00#8 0x00#8 (s.rxbuf.firstBytes s.rxn) s) := by
  have hlen := Quad.firstBytes_length s.rxbuf h.session.rxnRange
  have hle : s.rxn.toNat ≤ 3 := h.session.rxnRange
  have hpos : 1 ≤ s.rxn.toNat := by bv_omega
  exact ⟨h.session.complete ..,
    responseInv_complete_malformed (c := .length) (decodeBytes_short (by omega)) (by omega) (by omega),
    outcomeInv_complete_ackClass (by simp) (h.session.ackOnly hst)⟩

/-- A host that drives the timeout input in reset keeps the invariant: the timer stands at 0 there (R31; log 12). -/
theorem Inv.driveCfg (h : Inv s) (hrst : s.rst = true) (v : Nat) : Inv { s with cfgTReply := v } := by
  have hidle : s.st = stIdle := h.session.inReset hrst
  have htmr : s.tmr = 0 := h.session.tmrIdle (by simp [hidle])
  exact ⟨{ h.session with tmrRange := by simp [htmr] }, { h.response with }, { h.outcome with }⟩

/-- Whatever an event does, it keeps the invariant. -/
theorem Effect.keeps_inv {e : Event} {t : State} (heff : Effect s e t) (h : Inv s) : Inv t := by
  cases heff with
  | none => exact h
  | accept a o rest _ hready ho => exact (h.withRequests rest).acceptRequest hready ho
  | refuse a o rest => exact (h.withRequests rest).refuseRequest
  | send hlive hst => exact h.sendByte hlive.1 hst
  | arrive v => exact h.rxArrive v
  | take v rest _ hst hq => exact h.takeByte hst hq
  | count _ hst hlt => exact h.tick hst hlt
  | noResponse _ hst => exact h.noResponse hst
  | shortRead _ hst _ _ hn => exact h.shortRead hst hn
  | assert => exact inv_resetRegisters h.session.depth true
  | release => exact inv_resetRegisters h.session.depth false
  | drive v hrst => exact h.driveCfg hrst v

end

/-- Settles O42: the invariant does not read the list of events to come, and every effect an event can have keeps it. -/
theorem stepKeepsTheInvariant : Obligations.StepKeepsTheInvariant := by
  intro s t hinv hstep
  exact (step_effect hstep).keeps_inv (hinv.withTurns _)

/-! ### The report is not read

Each guard reads a register the view `withoutReport` keeps, and each branch writes the same values from a state and from its
view, so a step commutes with the view. -/

/-- A step's answer with its next state, if there is one, seen through a view. -/
def mapNext (view : State → State) : Host.Outcome State Fault Refusal → Host.Outcome State Fault Refusal
  | .next s => .next (view s)
  | .fault r => .fault r
  | .refused r => .refused r

/-- An answer that looks like a next state is one. -/
theorem mapNext_eq_next {view : State → State} {x : Host.Outcome State Fault Refusal} {t : State}
    (h : mapNext view x = mapNext view (.next t)) : ∃ u, x = .next u ∧ view u = view t := by
  cases x with
  | next u => exact ⟨u, rfl, by simpa [mapNext] using h⟩
  | fault r => simp [mapNext] at h
  | refused r => simp [mapNext] at h

section
variable (s : State)

@[simp] theorem withoutReport_st : (withoutReport s).st = s.st := rfl
@[simp] theorem withoutReport_rst : (withoutReport s).rst = s.rst := rfl
@[simp] theorem withoutReport_rxn : (withoutReport s).rxn = s.rxn := rfl
@[simp] theorem withoutReport_rxq : (withoutReport s).rxq = s.rxq := rfl
@[simp] theorem withoutReport_requests : (withoutReport s).requests = s.requests := rfl
@[simp] theorem withoutReport_reqReady : (withoutReport s).reqReady = s.reqReady := rfl
@[simp] theorem withoutReport_nextEvent : nextEvent (withoutReport s) = nextEvent s := rfl

end

/-- An update whose effect on everything else is the same with the report blanked out. -/
def IgnoresReport (f : State → State) : Prop :=
  ∀ s, withoutReport (f (withoutReport s)) = withoutReport (f s)

theorem whenLive_ignoresReport {f : State → State} (hf : IgnoresReport f) (s : State) :
    mapNext withoutReport (whenLive f (withoutReport s)) = mapNext withoutReport (whenLive f s) := by
  unfold whenLive
  rw [withoutReport_rst, withoutReport_st]
  split
  · rfl
  · split
    · rfl
    · simp only [mapNext, hf s]

/-! #### The events of the session -/

theorem takeRequest_ignoresReport (a o : Byte) : IgnoresReport (takeRequest a o) := by
  intro s
  unfold takeRequest
  cases encodeRaw a o <;> rfl

theorem decodeDone_ignoresReport (bytes : List Byte) : IgnoresReport (decodeDone bytes) := by
  intro s
  unfold decodeDone
  cases decodeBytes bytes <;> rfl

theorem request_ignoresReport (a o : Byte) (s : State) :
    mapNext withoutReport (request a o (withoutReport s)) = mapNext withoutReport (request a o s) := by
  unfold request
  rw [withoutReport_reqReady, withoutReport_rst, withoutReport_st]
  split
  · simp only [mapNext, takeRequest_ignoresReport a o s]
  · split <;> rfl

theorem presentRequest_ignoresReport (s : State) :
    mapNext withoutReport (presentRequest (withoutReport s)) = mapNext withoutReport (presentRequest s) := by
  unfold presentRequest
  rw [withoutReport_requests]
  split
  · rename_i r rest _
    simp only [runRequest_eq]
    exact request_ignoresReport r.addr r.op { s with requests := rest }
  · exact whenLive_ignoresReport (fun _ => rfl) s

theorem txAccept_ignoresReport : IgnoresReport txAccept := by
  intro s
  simp only [txAccept, sendByte, apply_ite withoutReport]
  rfl

theorem rxArrive_ignoresReport (v : Byte) : IgnoresReport (rxArrive v) := by
  intro s
  simp only [rxArrive, apply_ite withoutReport]
  rfl

theorem takeByte_ignoresReport (v : Byte) (rest : List Byte) : IgnoresReport (takeByte v rest) := by
  intro s
  unfold takeByte
  rw [withoutReport_rxn]
  split
  · rfl
  · exact decodeDone_ignoresReport _ { s with rxq := rest, rxbuf := s.rxbuf.set s.rxn v }

theorem rxTake_ignoresReport : IgnoresReport rxTake := by
  intro s
  unfold rxTake
  rw [withoutReport_st, withoutReport_rxq]
  split
  · split
    · exact takeByte_ignoresReport _ _ s
    · rfl
  · rfl

theorem tick_ignoresReport : IgnoresReport tick := by
  intro s
  simp only [tick, apply_ite withoutReport]
  rfl

theorem timeout_ignoresReport : IgnoresReport timeout := by
  intro s
  simp only [timeout, apply_ite withoutReport]
  rfl

theorem releaseReset_ignoresReport : IgnoresReport releaseReset := by
  intro s
  simp only [releaseReset, apply_ite withoutReport]
  rfl

theorem runEvent_ignoresReport (e : Event) (s : State) :
    mapNext withoutReport (runEvent e (withoutReport s)) = mapNext withoutReport (runEvent e s) := by
  cases e with
  | req => exact presentRequest_ignoresReport s
  | txAccept => exact whenLive_ignoresReport txAccept_ignoresReport s
  | rxArrive v => exact whenLive_ignoresReport (rxArrive_ignoresReport v) s
  | rxTake => exact whenLive_ignoresReport rxTake_ignoresReport s
  | tick => exact whenLive_ignoresReport tick_ignoresReport s
  | timeout => exact whenLive_ignoresReport timeout_ignoresReport s
  | assertReset => rfl
  | releaseReset => exact congrArg Host.Outcome.next (releaseReset_ignoresReport s)
  | driveCfg v =>
    simp only [runEvent, driveCfg, apply_ite (mapNext withoutReport)]
    rfl
  | readStatus =>
    simp only [runEvent, readStatus, apply_ite (mapNext withoutReport)]
    rfl

/-- The commuting diagram of a step: the report is not read. -/
theorem step_ignoresReport (s : State) :
    mapNext withoutReport (step (withoutReport s)) = mapNext withoutReport (step s) := by
  rw [step_eq, step_eq, withoutReport_nextEvent]
  exact runEvent_ignoresReport (nextEvent s) { s with turns := s.turns.tail }

/-- Settles O50: a step answers alike from both states, as each answers like the common state without the report. -/
theorem theReportIsNotRead : Obligations.TheReportIsNotRead := by
  intro s s' t hview hstep
  have hsame : mapNext withoutReport (step s') = mapNext withoutReport (.next t) := by
    rw [← step_ignoresReport, ← hview, step_ignoresReport, hstep]
  obtain ⟨t', hstep', ht⟩ := mapNext_eq_next hsame
  exact ⟨t', hstep', ht.symm⟩

/-! ### Who writes each register -/

/-- The event `e` ended a request: it is one of the four of `Completes`, and the block stands idle with a valid response and
its counters at 0 (R83). -/
structure Ended (s : State) (e : Event) (t : State) : Prop where
  event : Completes s e
  st : t.st = 0#2
  txi : t.txi = 0#3
  rxn : t.rxn = 0#3
  tmr : t.tmr = 0
  rspValid : t.rspValid = true

/-- The event `e` accepted a request (R84). -/
structure Accepted (s : State) (e : Event) (t : State) : Prop where
  event : e = .req
  idle : s.st = 0#2
  st : t.st = 1#2
  txi : t.txi = 0#3
  rspValid : t.rspValid = false

/-- The event `e` sent the last byte of a frame that awaits a reply (R87). -/
structure EnteredRx (s : State) (e : Event) (t : State) : Prop where
  event : e = .txAccept
  tx : s.st = 1#2
  last : 3#3 ≤ s.txi
  st : t.st = 2#2
  txi : t.txi = 0#3
  rxn : t.rxn = 0#3
  tmr : t.tmr = 0

/-- Every register that differs between `s` and `t` is one that the event `e` writes, from the state its rule names
(10_state.md section 1). -/
structure Writes (s : State) (e : Event) (t : State) : Prop where
  st : t.st ≠ s.st → Accepted s e t ∨ EnteredRx s e t ∨ Ended s e t
  request : t.reqAddr ≠ s.reqAddr ∨ t.reqOp ≠ s.reqOp ∨ t.txbuf ≠ s.txbuf → Accepted s e t
  txi : t.txi ≠ s.txi →
    Accepted s e t ∨ (e = .txAccept ∧ s.st = 1#2 ∧ s.txi < 3#3 ∧ t.st = 1#2 ∧ t.txi = s.txi + 1#3) ∨
      EnteredRx s e t ∨ Ended s e t
  rxbuf : t.rxbuf ≠ s.rxbuf → e = .rxTake ∧ s.st = 2#2 ∧ s.rxq ≠ []
  rxn : t.rxn ≠ s.rxn →
    (e = .rxTake ∧ s.st = 2#2 ∧ s.rxq ≠ [] ∧ s.rxn < 3#3 ∧ t.st = 2#2 ∧ t.rxn = s.rxn + 1#3) ∨
      EnteredRx s e t ∨ Ended s e t
  tmr : t.tmr ≠ s.tmr →
    (e = .tick ∧ s.st = 2#2 ∧ s.tmr < s.cfgTReply ∧ t.tmr = s.tmr + 1) ∨ EnteredRx s e t ∨ Ended s e t
  rxq : t.rxq ≠ s.rxq → (e = .rxTake ∧ s.st = 2#2 ∧ s.rxq ≠ []) ∨ ∃ v, e = .rxArrive v
  rxqOvf : t.rxqOvf ≠ s.rxqOvf → t.rxqOvf = true ∧ s.rxqDepth ≤ s.rxq.length ∧ ∃ v, e = .rxArrive v
  rspValid : t.rspValid ≠ s.rspValid → Accepted s e t ∨ Ended s e t
  report : t.rspStatus ≠ s.rspStatus ∨ t.rspCause ≠ s.rspCause ∨ t.rspAddr ≠ s.rspAddr ∨ t.rspOp ≠ s.rspOp ∨
    t.rspLen ≠ s.rspLen ∨ t.rspBytes ≠ s.rspBytes → Ended s e t
  rst : t.rst = s.rst
  rxqDepth : t.rxqDepth = s.rxqDepth
  held : s.rst = true → t = { s with cfgTReply := t.cfgTReply }
  cfgTReply : t.cfgTReply ≠ s.cfgTReply → s.rst = true ∧ e = .driveCfg t.cfgTReply

section
variable {s : State} {e : Event}

/-- An event without effect writes nothing. -/
theorem Writes.refl (s : State) (e : Event) : Writes s e s := by
  constructor <;> simp

/-- R84 writes the registers of an accepted request. -/
theorem Writes.acceptRequest (hrst : s.rst = false) (hst : s.st = 0#2) (a o : Byte) (q : Quad) (rest : List Request) :
    Writes s .req (acceptRequest a o q { s with requests := rest }) := by
  have hacc : Accepted s .req (Machine.acceptRequest a o q { s with requests := rest }) := ⟨rfl, hst, rfl, rfl, rfl⟩
  constructor
  case held => simp [hrst]
  all_goals simp [hacc]

/-- A completion writes the registers of R83; besides them only `RX_TAKE` touches `rxq` and `rxbuf`. -/
theorem Writes.complete (hrst : s.rst = false) (hc : Completes s e) {rs : List Request} {sent q : List Byte} {buf : Quad}
    (hrx : q ≠ s.rxq ∨ buf ≠ s.rxbuf → e = .rxTake ∧ s.st = 2#2 ∧ s.rxq ≠ [])
    (k : BitVec 3) (c : BitVec 2) (a o : Byte) (bs : List Byte) :
    Writes s e (complete k c a o bs { s with requests := rs, txStream := sent, rxq := q, rxbuf := buf }) := by
  have hended : Ended s e
      (Machine.complete k c a o bs { s with requests := rs, txStream := sent, rxq := q, rxbuf := buf }) :=
    ⟨hc, rfl, rfl, rfl, rfl, rfl⟩
  constructor
  case held => simp [hrst]
  case rxbuf => exact fun hne => hrx (.inr hne)
  case rxq => exact fun hne => .inl (hrx (.inl hne))
  all_goals simp [hended]

/-- The registers of a completion that touches neither the queue nor the agents' lists. -/
theorem Writes.complete_self (hrst : s.rst = false) (hc : Completes s e) (k : BitVec 3) (c : BitVec 2) (a o : Byte)
    (bs : List Byte) : Writes s e (Machine.complete k c a o bs s) :=
  .complete hrst hc (rs := s.requests) (sent := s.txStream) (q := s.rxq) (buf := s.rxbuf) (by simp) ..

/-- R87 writes the byte counter, or ends the request, or enters `RX`. -/
theorem Writes.sendByte (hrst : s.rst = false) (hst : s.st = 1#2) : Writes s .txAccept (sendByte s) := by
  rcases sendByte_cases s with ⟨hi, heq⟩ | ⟨hi, hf, heq⟩ | ⟨hi, -, heq⟩ <;> rw [heq]
  · constructor <;> simp [hrst, hst, hi]
  · exact .complete hrst (.sent hst (BitVec.not_lt.mp hi) hf) (rs := s.requests) (by simp) ..
  · have hrx : EnteredRx s .txAccept
        { s with txStream := s.txStream ++ [s.txData], st := stRx, txi := 0#3, rxn := 0#3, tmr := 0 } :=
      ⟨rfl, hst, BitVec.not_lt.mp hi, rfl, rfl, rfl, rfl⟩
    constructor
    case held => simp [hrst]
    all_goals simp [hrx]

/-- R88 writes the queue or the overflow bit. -/
theorem Writes.rxArrive (hrst : s.rst = false) (v : Byte) : Writes s (.rxArrive v) (rxArrive v s) := by
  rcases rxArrive_cases v s with ⟨-, heq⟩ | ⟨hfull, heq⟩ <;> rw [heq]
  · constructor <;> simp [hrst]
  · constructor <;> simp [hrst, hfull]

/-- R89 and R90 take a byte out of the queue into the buffer, and count it or end the request. -/
theorem Writes.takeByte (hrst : s.rst = false) (hst : s.st = 2#2) {v : Byte} {rest : List Byte} (hq : s.rxq = v :: rest) :
    Writes s .rxTake (takeByte v rest s) := by
  have hne : s.rxq ≠ [] := by simp [hq]
  rcases takeByte_cases v rest s with ⟨hn, heq⟩ | ⟨hn, heq⟩ <;> rw [heq]
  · constructor <;> simp [hrst, hst, hn, hne]
  · have hends := Writes.complete hrst (.taken hst hne hn) (rs := s.requests) (sent := s.txStream) (q := rest)
      (buf := s.rxbuf.set s.rxn v) fun _ => ⟨rfl, hst, hne⟩
    rcases decodeDone_cases _ { s with rxq := rest, rxbuf := s.rxbuf.set s.rxn v } with
      ⟨a, o, -, hdone⟩ | ⟨c, -, hdone⟩ <;> rw [hdone]
    · exact hends ..
    · exact hends ..

/-- Moves of the reset line apart, an event writes the registers its rules name. -/
theorem Effect.writes {t : State} (h : Effect s e t) (he : e.ofReset = false) : Writes s e t := by
  cases h with
  | none => exact .refl s e
  | accept a o rest _ hready _ =>
    obtain ⟨hrst, hst⟩ := reqReady_iff.mp hready
    exact .acceptRequest hrst hst ..
  | refuse a o rest hreq hready ho =>
    obtain ⟨hrst, hst⟩ := reqReady_iff.mp hready
    exact .complete hrst (.refused hst ⟨⟨a, o⟩, by simp [hreq], ho⟩) (sent := s.txStream) (q := s.rxq) (buf := s.rxbuf)
      (by simp) ..
  | send hlive hst => exact .sendByte hlive.1 hst
  | arrive v hlive => exact .rxArrive hlive.1 v
  | take v rest hlive hst hq => exact .takeByte hlive.1 hst hq
  | count hlive hst hlt =>
    have hrst := hlive.1
    constructor <;> simp [hrst, hst, hlt]
  | noResponse hlive hst hq hdue _ => exact .complete_self hlive.1 (.elapsed hst hq hdue) ..
  | shortRead hlive hst hq hdue _ => exact .complete_self hlive.1 (.elapsed hst hq hdue) ..
  | assert => simp [Event.ofReset] at he
  | release => simp [Event.ofReset] at he
  | drive v hrst => constructor <;> simp [hrst]

/-- A move of the reset line has no effect, or puts every register at its reset value (R129). -/
theorem Effect.of_reset {t : State} (h : Effect s e t) (he : e.ofReset = true) :
    t = s ∨ ∃ b, t = { resetRegisters s with rst := b } := by
  cases h with
  | none => exact .inl rfl
  | assert => exact .inr ⟨true, rfl⟩
  | release => exact .inr ⟨false, rfl⟩
  | accept | refuse | send | arrive | take | count | noResponse | shortRead | drive => simp [Event.ofReset] at he

end

/-- A step that does not move the reset line writes the registers its event's rules name. -/
theorem step_writes {s t : State} (h : step s = .next t) (he : (nextEvent s).ofReset = false) :
    Writes { s with turns := s.turns.tail } (nextEvent s) t :=
  (step_effect h).writes he

/-- A step that moves the reset line changes nothing but the list of events, or resets every register too. -/
theorem step_reset {s t : State} (h : step s = .next t) (he : (nextEvent s).ofReset = true) :
    t = { s with turns := s.turns.tail } ∨
      ∃ b, t = { resetRegisters { s with turns := s.turns.tail } with rst := b } :=
  (step_effect h).of_reset he

/-- Which requests end does not depend on the events to come. -/
theorem Completes.of_withTurns {s : State} {es : List Event} {e : Event} (h : Completes { s with turns := es } e) :
    Completes s e := by
  cases h with
  | refused hst hop => exact .refused hst hop
  | sent hst hi hf => exact .sent hst hi hf
  | taken hst hq hn => exact .taken hst hq hn
  | elapsed hst hq hdue => exact .elapsed hst hq hdue

/-- A block held in reset does not change `st`. -/
theorem Writes.rst_of_st {s t : State} {e : Event} (h : Writes s e t) (hne : t.st ≠ s.st) : s.rst = false := by
  by_contra hrst
  have ht := h.held (by simpa using hrst)
  exact hne (by rw [ht])

/-- Settles O40: each clause is a clause of `Writes`, which every effect but a move of the reset line has. -/
theorem registersChangeOnlyByTheirEvents : Obligations.RegistersChangeOnlyByTheirEvents := by
  intro s t hstep he
  have hw := step_writes hstep he
  refine ⟨fun hne => ?st, fun hne => ?request, fun hne => ?txi, hw.rxbuf, fun hne => ?rxn, fun hne => ?tmr, hw.rxq,
    fun hne => ?rxqOvf, fun hne => ?rspValid, fun hne => ?report, hw.rst, hw.rxqDepth, hw.held, hw.cfgTReply⟩
  case st =>
    rcases hw.st hne with hacc | hrx | hend
    · exact .inl ⟨hacc.event, hacc.idle, hacc.st⟩
    · exact .inr (.inl ⟨hrx.event, hrx.tx, hrx.last, hrx.st⟩)
    · exact .inr (.inr ⟨hend.event.of_withTurns, hend.st⟩)
  case request =>
    have hacc := hw.request hne
    exact ⟨hacc.event, hacc.idle, hacc.st⟩
  case txi =>
    rcases hw.txi hne with hacc | hsent | hrx | hend
    · exact .inl ⟨hacc.event, hacc.idle, hacc.st, hacc.txi⟩
    · exact .inr (.inl hsent)
    · exact .inr (.inr (.inl ⟨hrx.event, hrx.tx, hrx.last, hrx.st, hrx.txi⟩))
    · exact .inr (.inr (.inr ⟨hend.event.of_withTurns, hend.txi⟩))
  case rxn =>
    rcases hw.rxn hne with htaken | hrx | hend
    · exact .inl htaken
    · exact .inr (.inl ⟨hrx.event, hrx.tx, hrx.st, hrx.rxn⟩)
    · exact .inr (.inr ⟨hend.event.of_withTurns, hend.rxn⟩)
  case tmr =>
    rcases hw.tmr hne with hcounted | hrx | hend
    · exact .inl hcounted
    · exact .inr (.inl ⟨hrx.event, hrx.tx, hrx.st, hrx.tmr⟩)
    · exact .inr (.inr ⟨hend.event.of_withTurns, hend.tmr⟩)
  case rxqOvf =>
    obtain ⟨hset, -, harrive⟩ := hw.rxqOvf hne
    exact ⟨hset, harrive⟩
  case rspValid =>
    rcases hw.rspValid hne with hacc | hend
    · exact .inl ⟨hacc.event, hacc.idle, hacc.st, hacc.rspValid⟩
    · exact .inr ⟨hend.event.of_withTurns, hend.rspValid⟩
  case report =>
    have hend := hw.report hne
    exact ⟨hend.event.of_withTurns, hend.rspValid, hend.st⟩

/-- Settles O23: a byte that finds the queue full is lost by `rxArrive`; no other event but reset writes the bit, by
`Writes`, and reset puts it at 0. -/
theorem overflowBitIsSticky : Obligations.OverflowBitIsSticky := by
  refine ⟨fun s v ts hturns hrst hst hfull => ?set, fun s t hstep hclear hset => ?onlyArrive,
    fun s t hstep hset hclear => ?onlyReset⟩
  case set =>
    have hlost : rxArrive v { s with turns := ts } = { s with turns := ts, rxqOvf := true } := by
      simp [rxArrive, hfull]
    have hlive : ({ s with turns := ts } : State).live := ⟨hrst, hst⟩
    refine ⟨_, (step_turn hturns).trans (whenLive_live hlive), ?_, ?_⟩ <;> rw [hlost]
  case onlyArrive =>
    cases he : (nextEvent s).ofReset
    · obtain ⟨-, hfull, harrive⟩ := (step_writes hstep he).rxqOvf (by simp [hclear, hset])
      exact ⟨hfull, harrive⟩
    · rcases step_reset hstep he with rfl | ⟨b, rfl⟩
      · exact absurd hset (by simp [hclear])
      · exact absurd hset (by simp)
  case onlyReset =>
    by_contra he
    obtain ⟨hset', -⟩ := (step_writes hstep (by simpa using he)).rxqOvf (by simp [hclear, hset])
    simp [hclear] at hset'

/-- Settles O36: `st` and the request's registers change only in the ways of `Writes`, and each way has its source state. -/
theorem stateOrder : Obligations.StateOrder := by
  intro s t _ hstep he
  have hw := step_writes hstep he
  have hst : t.st = s.st ∨ s.st = 0#2 ∧ t.st = 1#2 ∨ s.st = 1#2 ∧ t.st = 2#2 ∨ t.st = 0#2 ∧ t.rspValid = true := by
    by_cases hne : t.st = s.st
    · exact .inl hne
    · rcases hw.st hne with hacc | hrx | hend
      · exact .inr (.inl ⟨hacc.idle, hacc.st⟩)
      · exact .inr (.inr (.inl ⟨hrx.tx, hrx.st⟩))
      · exact .inr (.inr (.inr ⟨hend.st, hend.rspValid⟩))
  refine ⟨fun h => ?fromIdle, fun h => ?fromTx, fun h => ?fromRx, fun h => ?request, fun h ht => ?txi, fun h ht => ?ends⟩
  case fromIdle => grind
  case fromTx => grind
  case fromRx => grind
  case request =>
    by_contra hne
    exact h (hw.request (by grind)).idle
  case txi =>
    by_cases hne : t.txi = s.txi
    · exact .inl hne
    · rcases hw.txi hne with hacc | ⟨-, -, -, -, hsent⟩ | hrx | hend
      · exact absurd (h.symm.trans hacc.idle) (by decide)
      · exact .inr hsent
      · exact absurd (ht.symm.trans hrx.st) (by decide)
      · exact absurd (ht.symm.trans hend.st) (by decide)
  case ends =>
    have hne : t.st ≠ s.st := fun heq => h (heq ▸ ht)
    have hrst : t.rst = false := hw.rst.trans (hw.rst_of_st hne)
    exact ⟨by grind, reqReady_iff.mpr ⟨hrst, ht⟩⟩

/-! ### Which events stop -/

theorem whenLive_illegal (f : State → State) {s : State} (hst : s.st = 3#2) (hrst : s.rst = false) :
    whenLive f s = .fault .illegalSt := by
  simp [whenLive, hst, hrst]

theorem request_illegal (a o : Byte) {s : State} (hst : s.st = 3#2) (hrst : s.rst = false) :
    request a o s = .fault .illegalSt := by
  simp [request, State.reqReady, hst, hrst]

theorem presentRequest_illegal {s : State} (hst : s.st = 3#2) (hrst : s.rst = false) :
    presentRequest s = .fault .illegalSt := by
  unfold presentRequest
  split
  · rw [runRequest_eq]
    exact request_illegal _ _ hst hrst
  · exact whenLive_illegal _ hst hrst

/-- Every event of the session shares the fault on `st = 3` (R17; log 10). -/
theorem runEvent_illegal {e : Event} {s : State} (he : e.ofSession = true) (hst : s.st = 3#2) (hrst : s.rst = false) :
    runEvent e s = .fault .illegalSt := by
  cases e with
  | req => exact presentRequest_illegal hst hrst
  | txAccept | rxArrive | rxTake | tick | timeout => exact whenLive_illegal _ hst hrst
  | assertReset | releaseReset | driveCfg | readStatus => simp [Event.ofSession] at he

theorem whenLive_legal (f : State → State) {s : State} (hst : s.st ≠ 3#2) : ∃ t, whenLive f s = .next t := by
  cases hrst : s.rst
  · exact ⟨f s, whenLive_live ⟨hrst, hst⟩⟩
  · exact ⟨s, by simp [whenLive, hrst]⟩

theorem request_legal (a o : Byte) {s : State} (hst : s.st ≠ 3#2) : ∃ t, request a o s = .next t := by
  unfold request
  split
  · exact ⟨_, rfl⟩
  · exact ⟨_, if_neg fun h => hst h.2⟩

theorem presentRequest_legal {s : State} (hst : s.st ≠ 3#2) : ∃ t, presentRequest s = .next t := by
  unfold presentRequest
  split
  · rw [runRequest_eq]
    exact request_legal _ _ hst
  · exact whenLive_legal _ hst

theorem readStatus_legal {s : State} (h : s.rspStatus ≤ 5#3) : readStatus s = .next s := by
  simp [readStatus, statusReserved, BitVec.not_lt.mpr h]

theorem driveCfg_inReset (v : Nat) {s : State} (hrst : s.rst = true) :
    driveCfg v s = .next { s with cfgTReply := v } := by
  simp [driveCfg, hrst]

theorem driveCfg_outOfReset (v : Nat) {s : State} (hrst : s.rst = false) : driveCfg v s = .refused .cfgOutOfReset := by
  simp [driveCfg, hrst]

/-- With a legal `st` and a legal `rsp_status`, only a host that drives the timeout input out of reset stops the machine. -/
theorem runEvent_legal (e : Event) {s : State} (hst : s.st ≠ 3#2) (hstatus : s.rspStatus ≤ 5#3) :
    (∃ t, runEvent e s = .next t) ∨
      (s.rst = false ∧ runEvent e s = .refused .cfgOutOfReset ∧ ∃ v, e = .driveCfg v) := by
  cases e with
  | req => exact .inl (presentRequest_legal hst)
  | txAccept | rxArrive | rxTake | tick | timeout => exact .inl (whenLive_legal _ hst)
  | assertReset | releaseReset => exact .inl ⟨_, rfl⟩
  | driveCfg v =>
    cases hrst : s.rst
    · exact .inr ⟨rfl, driveCfg_outOfReset v hrst, v, rfl⟩
    · exact .inl ⟨_, driveCfg_inReset v hrst⟩
  | readStatus => exact .inl ⟨s, readStatus_legal hstatus⟩

/-- Settles O43: the invariant makes `st` and `rsp_status` legal, and then no event but a driven timeout input stops. -/
theorem invariantStatesDoNotStop : Obligations.InvariantStatesDoNotStop := by
  intro s hinv
  rw [step_eq]
  exact runEvent_legal (nextEvent s) (s := { s with turns := s.turns.tail }) hinv.session.legal hinv.response.status

/-- Settles O44: the guard every event shares faults on `st = 3`, and `Writes` shows the values an event can put there. -/
theorem illegalStFaults : Obligations.IllegalStFaults := by
  refine ⟨fun s i hst hrst => ?instr, fun s e ts hst hrst hturns he => ?event, fun s t hlegal hstep => ?never⟩
  case instr => rw [exec_eq_request, request_illegal _ _ hst hrst]
  case event =>
    rw [step_turn hturns]
    exact runEvent_illegal he hst hrst
  case never =>
    cases he : (nextEvent s).ofReset
    · by_cases hne : t.st = s.st
      · rwa [hne]
      · rcases (step_writes hstep he).st hne with hacc | hrx | hend
        · simp [hacc.st]
        · simp [hrx.st]
        · simp [hend.st]
    · rcases step_reset hstep he with rfl | ⟨b, rfl⟩
      · exact hlegal
      · simp

/-- Settles O48: `driveCfg` by the level of the reset line, and no other event writes the input, by `Writes`; reset keeps it. -/
theorem timeoutInputIsFixedOutOfReset : Obligations.TimeoutInputIsFixedOutOfReset := by
  refine ⟨fun s v ts hturns => ?drive, fun s t hrst hstep => ?fixed⟩
  case drive =>
    rw [step_turn hturns]
    exact ⟨fun hrst => driveCfg_inReset v hrst, fun hrst => driveCfg_outOfReset v hrst⟩
  case fixed =>
    cases he : (nextEvent s).ofReset
    · by_contra hne
      obtain ⟨hset, -⟩ := (step_writes hstep he).cfgTReply hne
      simp [hrst] at hset
    · rcases step_reset hstep he with rfl | ⟨b, rfl⟩ <;> rfl

end Sys2Proof.Machine

namespace Sys2Proof

/-! ### The words the decoder reads and the words it refuses -/

/-- The opcode map read forwards (R61). -/
theorem decodeRequest_request (i : Instr) : decodeRequest i.request.addr i.request.op = some i := by
  cases i <;> rfl

/-- DECODE accepts every instruction's frame (R75). -/
theorem decodeBytes_encode (i : Instr) : decodeBytes (encode i).toList = .ok i.request.addr i.request.op := by
  simp [encode, Quad.toList, decodeBytes_four, BitVec.not_lt.mpr i.request_op_legal]

theorem decode_encode (i : Instr) : decode (encode i).toList = .ok i := by
  simp [decode, decodeBytes_encode, decodeRequest_request]

theorem decodeTableWord_frameWord (i : Instr) : decodeTableWord 32 (frameWord (encode i)) = some i := by
  simp [decodeTableWord, decodeWord, wordBytes_frameWord, decode_encode]

/-- The three bytes of a word that DECODE checks: BEGIN, an opcode and the checksum of the two before it (R55). -/
theorem decodeTableWord_some_bytes {nbits w : Nat} {i : Instr} (h : decodeTableWord nbits w = some i) :
    wordByte nbits w 0 = beginCode ∧ wordByte nbits w 2 ≤ 0x05#8 ∧
      wordByte nbits w 3 = checksum (wordByte nbits w 1) (wordByte nbits w 2) := by
  have hbytes : [wordByte nbits w 0, wordByte nbits w 1, wordByte nbits w 2, wordByte nbits w 3] =
      [beginCode, i.request.addr, i.request.op, checksum i.request.addr i.request.op] :=
    (decodeTableWord_some h).2
  simp only [List.cons.injEq, and_true] at hbytes
  obtain ⟨h0, h1, h2, h3⟩ := hbytes
  rw [h1, h2]
  exact ⟨h0, i.request_op_legal, h3⟩

theorem decodeTableWord_none_of_begin {nbits w : Nat} (h : wordByte nbits w 0 ≠ beginCode) :
    decodeTableWord nbits w = none :=
  Option.eq_none_iff_forall_ne_some.mpr fun _ hi =>
    have ⟨hbegin, _, _⟩ := decodeTableWord_some_bytes hi
    h hbegin

theorem decodeTableWord_none_of_opcode {nbits w : Nat} (h : 0x05#8 < wordByte nbits w 2) :
    decodeTableWord nbits w = none :=
  Option.eq_none_iff_forall_ne_some.mpr fun _ hi =>
    have ⟨_, hop, _⟩ := decodeTableWord_some_bytes hi
    BitVec.not_lt.mpr hop h

theorem decodeTableWord_none_of_checksum {nbits w : Nat}
    (h : wordByte nbits w 3 ≠ checksum (wordByte nbits w 1) (wordByte nbits w 2)) : decodeTableWord nbits w = none :=
  Option.eq_none_iff_forall_ne_some.mpr fun _ hi =>
    have ⟨_, _, hchk⟩ := decodeTableWord_some_bytes hi
    h hchk

/-- Settles O11: each accepted word is the word of its instruction's frame, and each refused one fails one of DECODE's three
checks: no opcode in byte 2, no BEGIN, and twice a wrong CHK. -/
theorem tableWordsDecode : Obligations.TableWordsDecode :=
  ⟨decodeTableWord_frameWord (.off 0x01#8), decodeTableWord_frameWord (.on 0x5F#8),
    decodeTableWord_frameWord (.offAck 0x01#8), decodeTableWord_frameWord (.onAck 0x01#8),
    decodeTableWord_frameWord (.negateAck 0xFF#8), decodeTableWord_frameWord (.queryAck 0x01#8),
    decodeTableWord_none_of_opcode (by decide), decodeTableWord_none_of_begin (by decide),
    decodeTableWord_none_of_checksum (by decide), decodeTableWord_none_of_checksum (by decide)⟩

end Sys2Proof

namespace Sys2Proof

/-! ### The frames DECODE accepts -/

/-- The wire frame of an address and an opcode byte, in the order of its bytes (R55). -/
def frameBytes (a o : Byte) : List Byte := [beginCode, a, o, checksum a o]

/-- DECODE accepts exactly the frames of the legal opcode bytes, each for its own address and opcode (R62, R76). -/
theorem decodeBytes_ok_iff {s : List Byte} {a o : Byte} : decodeBytes s = .ok a o ↔ o ≤ 0x05#8 ∧ s = frameBytes a o := by
  refine ⟨decodeBytes_ok, ?_⟩
  rintro ⟨hop, rfl⟩
  simp [frameBytes, decodeBytes_four, BitVec.not_lt.mpr hop]

/-- ENCODE's frame, as the bytes on the wire (R72). -/
theorem encodeRaw_toList {a o : Byte} (h : o ≤ 0x05#8) : ∃ f, encodeRaw a o = some f ∧ f.toList = frameBytes a o :=
  ⟨_, encodeRaw_legal h, rfl⟩

/-- The frame with its checksum written as the sum of R71. -/
theorem frameBytes_eq_sum (a o : Byte) :
    frameBytes a o = [0xA0#8, a, o, BitVec.ofNat 8 ((0xA0 + a.toNat + o.toNat) % 256)] := by
  rw [← checksum_toNat, BitVec.ofNat_toNat, BitVec.setWidth_eq]
  rfl

/-- The legal opcode bytes (R61). -/
def opcodeBytes : List Byte := [0x00#8, 0x01#8, 0x02#8, 0x03#8, 0x04#8, 0x05#8]

/-- Every address byte, the reserved ones too (R66). -/
def addressBytes : List Byte := (List.finRange 256).map BitVec.ofFin

/-- The frames of every address and every legal opcode byte. -/
def validFrames : List (List Byte) := (addressBytes ×ˢ opcodeBytes).map fun p => frameBytes p.1 p.2

theorem mem_opcodeBytes {o : Byte} : o ∈ opcodeBytes ↔ o ≤ 0x05#8 := by
  constructor
  · exact (by decide : ∀ o ∈ opcodeBytes, o ≤ 0x05#8) o
  · intro h
    simpa [opcodeBytes] using opcode_cases h

theorem mem_addressBytes (a : Byte) : a ∈ addressBytes :=
  List.mem_map.mpr ⟨a.toFin, List.mem_finRange _, rfl⟩

theorem addressBytes_nodup : addressBytes.Nodup :=
  (List.nodup_finRange 256).map fun _ _ h => BitVec.ofFin.inj h

theorem mem_validFrames {s : List Byte} : s ∈ validFrames ↔ ∃ a o, o ≤ 0x05#8 ∧ s = frameBytes a o := by
  simp [validFrames, mem_opcodeBytes, mem_addressBytes, eq_comm]

/-- A frame shows its address and its opcode, so no two pairs share one. -/
theorem validFrames_nodup : validFrames.Nodup := by
  refine (addressBytes_nodup.product (by decide : opcodeBytes.Nodup)).map ?_
  rintro ⟨a, o⟩ ⟨a', o'⟩ h
  simp only [frameBytes, List.cons.injEq, true_and] at h
  obtain ⟨ha, ho, -⟩ := h
  exact Prod.ext ha ho

/-- 256 addresses times 6 opcodes. -/
theorem validFrames_length : validFrames.length = 1536 := by
  simp [validFrames, addressBytes, opcodeBytes, List.length_product]

/-- Settles O6: DECODE accepts exactly the frames of legal opcodes, and `validFrames` lists those once each. -/
theorem acceptedFramesReencode : Obligations.AcceptedFramesReencode := by
  refine ⟨fun s a o h => ?reencode, fun s s' a o h h' => ?injective,
    validFrames, validFrames_nodup, validFrames_length, fun s => ?accepted, fun s => ?sums⟩
  case reencode =>
    obtain ⟨hop, rfl⟩ := decodeBytes_ok_iff.mp h
    exact encodeRaw_toList hop
  case injective =>
    obtain ⟨-, rfl⟩ := decodeBytes_ok_iff.mp h
    obtain ⟨-, rfl⟩ := decodeBytes_ok_iff.mp h'
    rfl
  case accepted => simp only [mem_validFrames, decodeBytes_ok_iff]
  case sums => simp only [mem_validFrames, frameBytes_eq_sum]

/-! ### The round trip of instructions -/

/-- Instructions with the same frame are the same, as the frame decodes to each of them (R75). -/
theorem encode_injective : Function.Injective encode := by
  intro i j h
  have hdec : decode (encode i).toList = .ok j := h ▸ decode_encode j
  exact Except.ok.inj ((decode_encode i).symm.trans hdec)

/-- A word of at most four bytes is put together again from its bytes (R41). -/
theorem frameWord_of_wordBytes {nbits w : Nat} {q : Quad} (hbits : nbits ≤ 32) (h : wordBytes nbits w = q.toList) :
    w % 2 ^ nbits = frameWord q := by
  have hlt : w % 2 ^ nbits < 2 ^ 32 :=
    (Nat.mod_lt _ (Nat.two_pow_pos nbits)).trans_le (Nat.pow_le_pow_right (by decide) hbits)
  have hbytes : [wordByte nbits w 0, wordByte nbits w 1, wordByte nbits w 2, wordByte nbits w 3] =
      [q.b0, q.b1, q.b2, q.b3] := h
  simp only [List.cons.injEq, and_true] at hbytes
  obtain ⟨h0, h1, h2, h3⟩ := hbytes
  simp only [frameWord, ← h0, ← h1, ← h2, ← h3, wordByte, BitVec.toNat_ofNat]
  generalize w % 2 ^ nbits = x at hlt ⊢
  omega

/-- Settles O10: the two round trips, and both decoders accept only the whole frame; for a word, its bytes make it up. -/
theorem decodeOfEncodeInstr : Obligations.DecodeOfEncodeInstr := by
  refine ⟨fun i _ => decode_encode i, fun i _ => decodeTableWord_frameWord i, fun _ _ h => encode_injective h,
    fun _ _ h => (decode_ok h).symm, fun nbits w i h => ?_⟩
  obtain ⟨hbits, hbytes⟩ := decodeTableWord_some h
  exact ⟨hbits, frameWord_of_wordBytes hbits hbytes⟩

end Sys2Proof

namespace Sys2Proof.Machine

/-! ### The instruction a step runs -/

/-- The event `REQ` takes the request at the port and runs it (R81, R123). -/
theorem step_req {s : State} {r : Request} {rest : List Request} {ts : List Event}
    (hturns : s.turns = .req :: ts) (hreq : s.requests = r :: rest) :
    step s = runRequest r { s with turns := ts, requests := rest } := by
  simp [step_turn hturns, runEvent, presentRequest, hreq]

theorem runRequest_decoded {a o : Byte} {i : Instr} (h : decodeRequest a o = some i) (s : State) :
    runRequest ⟨a, o⟩ s = exec i s := by
  rw [runRequest_eq, exec_eq_request, decodeRequest_some h]

/-- A word that is a frame puts its instruction's request on the port and gives the host the turn (log 5, 6). -/
theorem withFetchWord_some {nbits w : Nat} {i : Instr} (h : decodeTableWord nbits w = some i) (s : State) :
    s.withFetchWord nbits w = { s with requests := i.request :: s.requests, turns := .req :: s.turns } := by
  simp [State.withFetchWord, h]

/-- Settles O12: `REQ` runs the request at the port, which the opcode map reads as an instruction or leaves as `SEND.RAW`;
a frame's word presents the request of its instruction. -/
theorem stepRunsTheDecodedInstruction : Obligations.StepRunsTheDecodedInstruction := by
  refine ⟨fun s a o rest ts i hturns hreq hi => ?instr, fun s a o rest ts hturns hreq _ => ?raw, fun s nbits w i h => ?word⟩
  case instr => rw [step_req hturns hreq, runRequest_decoded hi]
  case raw => rw [step_req hturns hreq, runRequest_eq]
  case word =>
    rw [withFetchWord_some h, step_req rfl rfl]
    exact runRequest_decoded (decodeRequest_request i) s

end Sys2Proof.Machine

namespace Sys2Proof

/-! ### The checksum as a function of each byte -/

theorem checksum_eq_addr_add (a o : Byte) : checksum a o = a + (0xA0#8 + o) := by
  rw [checksum_eq, add_left_comm, add_assoc]

theorem checksum_add_addr (a o d : Byte) : checksum (a + d) o = checksum a o + d := by
  simp only [checksum_eq_addr_add, add_right_comm]

theorem checksum_add_opcode (a o d : Byte) : checksum a (o + d) = checksum a o + d := by
  simp only [checksum_eq, add_assoc]

/-- What the address gains and the opcode byte loses leaves the byte sum as it was (R78). -/
theorem checksum_trade (a o d : Byte) : checksum (a + d) (o - d) = checksum a o := by
  rw [checksum_add_addr, ← checksum_add_opcode, sub_add_cancel]

/-- With the opcode byte fixed the checksum adds a constant to the address (R79). -/
theorem checksum_addr_bijective (o : Byte) : Function.Bijective fun a : Byte => checksum a o := by
  simp only [checksum_eq_addr_add]
  exact AddGroup.addRight_bijective _

theorem checksum_addr_ne {a a' : Byte} (h : a ≠ a') (o : Byte) : checksum a o ≠ checksum a' o :=
  (checksum_addr_bijective o).injective.ne h

theorem checksum_opcode_ne {o o' : Byte} (h : o ≠ o') (a : Byte) : checksum a o ≠ checksum a o' := by
  simpa only [checksum_eq, ne_eq, add_right_inj] using h

/-- Settles O9: the checksum adds a constant to the address, and what the opcode byte gains the checksum gains. -/
theorem checksumIsABijection : Obligations.ChecksumIsABijection := by
  refine ⟨checksum_addr_bijective, fun a k _ => ?_⟩
  rw [← checksum_add_opcode, BitVec.zero_add]

/-- Settles O1: the byte sum is `checksum_toNat`, its bound that of two bytes; the corner cases are evaluated. -/
theorem checksumIsTheByteSum : Obligations.ChecksumIsTheByteSum := by
  refine ⟨fun a o => ⟨checksum_toNat a o, ?_⟩, by decide⟩
  have ha := a.isLt
  have ho := o.isLt
  omega

/-! ### What ENCODE and DECODE answer -/

/-- ENCODE of a legal opcode copies bytes 1 and 2, so only bytes 0 and 3 can differ (R74). -/
theorem encodeRaw_eq_some_iff {s0 s1 s2 s3 : Byte} (h : s2 ≤ 0x05#8) :
    encodeRaw s1 s2 = some ⟨s0, s1, s2, s3⟩ ↔ s0 = beginCode ∧ s3 = checksum s1 s2 := by
  rw [encodeRaw_legal h]
  simp only [Option.some.injEq, Quad.mk.injEq, true_and, eq_comm]

theorem decodeBytes_illegal {s2 : Byte} (h : 0x05#8 < s2) (s0 s1 s3 : Byte) :
    decodeBytes [s0, s1, s2, s3] = .mf .badOpcode := by
  rw [decodeBytes_four, if_pos h]

/-- The decoder that checks bytes 0 and 3 alone (R74). -/
theorem decodeBytes_legal {s2 : Byte} (h : s2 ≤ 0x05#8) (s0 s1 s3 : Byte) :
    decodeBytes [s0, s1, s2, s3] =
      if s0 = beginCode ∧ s3 = checksum s1 s2 then .ok s1 s2 else .mf .mismatch := by
  rw [decodeBytes_four, if_neg (BitVec.not_lt.mpr h)]

theorem decodeBytes_wrong_begin {s0 s2 : Byte} (h : s2 ≤ 0x05#8) (h0 : s0 ≠ beginCode) (s1 s3 : Byte) :
    decodeBytes [s0, s1, s2, s3] = .mf .mismatch := by
  rw [decodeBytes_legal h, if_neg fun hc => h0 hc.left]

theorem decodeBytes_wrong_checksum {s1 s2 s3 : Byte} (h : s2 ≤ 0x05#8) (h3 : s3 ≠ checksum s1 s2) (s0 : Byte) :
    decodeBytes [s0, s1, s2, s3] = .mf .mismatch := by
  rw [decodeBytes_legal h, if_neg fun hc => h3 hc.right]

theorem decodeBytes_frameBytes {o : Byte} (h : o ≤ 0x05#8) (a : Byte) : decodeBytes (frameBytes a o) = .ok a o :=
  decodeBytes_ok_iff.mpr ⟨h, rfl⟩

/-- Four bytes that are a frame in their begin marker and their checksum decode to bytes 1 and 2 (R75). -/
theorem decodeBytes_of_checksum {s1 s2 s3 : Byte} (h : s2 ≤ 0x05#8) (h3 : s3 = checksum s1 s2) :
    decodeBytes [0xA0#8, s1, s2, s3] = .ok s1 s2 := by
  subst h3
  exact decodeBytes_frameBytes h s1

/-- Settles O4: the re-encoded frame differs in byte 0 or byte 3 only, and DECODE checks those two. -/
theorem decodeNeedsBytesZeroAndThree : Obligations.DecodeNeedsBytesZeroAndThree := by
  intro s0 s1 s2 s3 hop
  refine ⟨?_, decodeBytes_legal hop s0 s1 s3⟩
  rw [ne_eq, encodeRaw_eq_some_iff hop]
  exact not_and_or

/-- Settles O2: the two cases are the opcode bytes ENCODE refuses and those it takes; the corner cases are evaluated. -/
theorem encodeBuildsTheFrameOrRejects : Obligations.EncodeBuildsTheFrameOrRejects := by
  refine ⟨fun a o => ?_, by decide⟩
  split
  case isTrue h => exact encodeRaw_illegal h
  case isFalse h => exact encodeRaw_legal (BitVec.not_lt.mp h)

/-- Settles O3: each clause is DECODE's answer for the first check that fails, or for none; the corner cases are
instances. -/
theorem decodeChecksInOrder : Obligations.DecodeChecksInOrder := by
  refine ⟨fun s h => decodeBytes_short h, fun s0 s1 s2 s3 h => decodeBytes_illegal h s0 s1 s3,
    fun s0 s1 s2 s3 hop h => ?mismatch, fun s0 s1 s2 s3 hop h => ?accepted,
    decodeBytes_illegal (by decide) _ _ _, decodeBytes_wrong_begin (by decide) (by decide) _ _,
    decodeBytes_wrong_checksum (by decide) (by decide) _,
    decodeBytes_of_checksum (by decide) (by decide), decodeBytes_of_checksum (by decide) (by decide)⟩
  case mismatch => rw [decodeBytes_legal hop, if_neg (mt (encodeRaw_eq_some_iff hop).mpr h)]
  case accepted => rw [decodeBytes_legal hop, if_pos ((encodeRaw_eq_some_iff hop).mp h)]

/-- Settles O5: ENCODE's frame of a legal opcode is one DECODE accepts. -/
theorem decodeOfEncode : Obligations.DecodeOfEncode := by
  intro a o hop
  obtain ⟨f, hf, hbytes⟩ := encodeRaw_toList (a := a) hop
  exact ⟨f, hf, hbytes ▸ decodeBytes_frameBytes hop a⟩

/-! ### Changes to the bytes of a frame -/

/-- A byte with one bit flipped is another byte. -/
theorem xor_one_shiftLeft_ne {k : Nat} (hk : k < 8) (b : Byte) : b ^^^ (1#8 <<< k) ≠ b := by
  have hbit : ∀ k < 8, 1#8 <<< k ≠ 0#8 := by decide
  exact fun h => hbit k hk (xor_left_eq_self_iff.mp h)

/-- Settles O7: another byte 0 or byte 3 fails its own check, another byte 1 or byte 2 needs another checksum, and a flipped
bit makes another byte. -/
theorem everySingleByteChangeIsRejected : Obligations.EverySingleByteChangeIsRejected := by
  intro a o hop
  have hbegin : ∀ v, v ≠ 0xA0#8 → decodeBytes [v, a, o, checksum a o] = .mf .mismatch :=
    fun v hv => decodeBytes_wrong_begin hop hv _ _
  have haddr : ∀ v, v ≠ a → decodeBytes [0xA0#8, v, o, checksum a o] = .mf .mismatch :=
    fun v hv => decodeBytes_wrong_checksum hop (checksum_addr_ne hv.symm o) _
  have hopcode : ∀ v, v ≠ o →
      decodeBytes [0xA0#8, a, v, checksum a o] = .mf (if 0x05#8 < v then .badOpcode else .mismatch) := by
    intro v hv
    split
    case isTrue h => exact decodeBytes_illegal h _ _ _
    case isFalse h => exact decodeBytes_wrong_checksum (BitVec.not_lt.mp h) (checksum_opcode_ne hv.symm a) _
  have hchk : ∀ v, v ≠ checksum a o → decodeBytes [0xA0#8, a, o, v] = .mf .mismatch :=
    fun v hv => decodeBytes_wrong_checksum hop hv _
  refine ⟨hbegin, haddr, hopcode, hchk, fun k hk => ?_⟩
  have hflip := xor_one_shiftLeft_ne hk
  exact ⟨⟨_, hbegin _ (hflip _)⟩, ⟨_, haddr _ (hflip _)⟩, ⟨_, hopcode _ (hflip _)⟩, ⟨_, hchk _ (hflip _)⟩⟩

/-- Settles O8: the changed bytes still hold the checksum of their address and opcode, so they are a frame. -/
theorem twoByteChangesCanGoUndetected : Obligations.TwoByteChangesCanGoUndetected :=
  ⟨checksum_trade,
    fun a o d _ hop => decodeBytes_of_checksum hop (checksum_trade a o d).symm,
    fun a o d hop => decodeBytes_of_checksum hop (checksum_add_addr a o d).symm,
    decodeBytes_of_checksum (by decide) (by decide), decodeBytes_of_checksum (by decide) (by decide),
    decodeBytes_of_checksum (by decide) (by decide), decodeBytes_of_checksum (by decide) (by decide)⟩

end Sys2Proof

namespace Sys2Proof

/-! ### The class of an opcode and the bytes of a frame -/

/-- The fire-and-forget opcodes are 0x00 and 0x01 (R61). -/
theorem fireAndForget_iff {o : Byte} : fireAndForget o = true ↔ o = 0x00#8 ∨ o = 0x01#8 := by
  simp [fireAndForget]

theorem fireAndForget_of_le {o : Byte} (h : o ≤ 0x01#8) : fireAndForget o = true := by
  rw [fireAndForget_iff]
  bv_omega

theorem not_fireAndForget_of_le {o : Byte} (h : 0x02#8 ≤ o) : fireAndForget o = false := by
  rw [Bool.eq_false_iff, ne_eq, fireAndForget_iff]
  rintro (rfl | rfl) <;> simp [BitVec.le_def] at h

/-- The bytes up to an index, and the byte at it, are the bytes up to the next (R13). -/
theorem Quad.take_append_get (q : Quad) {n : Nat} (h : n < 4) :
    q.toList.take n ++ [q.get (BitVec.ofNat 3 n)] = q.toList.take (n + 1) := by
  match n, h with
  | 0, _ | 1, _ | 2, _ | 3, _ => rfl

end Sys2Proof

namespace Sys2Proof.Machine

/-! ### The events of the session, one rule for each

Each rule says what the event does where its guard is true, or that it does nothing where the guard is false. -/

/-- Where the session goes once the fourth byte of the frame is out: the request is done, or the read starts (R87). -/
def frameSent (s : State) : State :=
  if fireAndForget s.reqOp = true then complete statusOkNoReply causeNone 0x00#8 0x00#8 [] s
  else { s with st := stRx, txi := 0#3, rxn := 0#3, tmr := 0 }

section
variable {s : State} {ts : List Event}

/-- A state in `TX` or `RX` out of reset has a meaning (R17). -/
theorem live_of_busy (hrst : s.rst = false) (hst : s.st = 1#2 ∨ s.st = 2#2) : s.live := by
  refine ⟨hrst, fun h => ?_⟩
  rcases hst with hst | hst <;> simp [hst] at h

/-- An event under the guard every event shares, when it is the next one and the block is live. -/
theorem step_whenLive {e : Event} {f : State → State} (hturns : s.turns = e :: ts)
    (he : ∀ u, runEvent e u = whenLive f u) (hlive : s.live) : step s = .next (f { s with turns := ts }) := by
  rw [step_turn hturns, he, whenLive_live (s := { s with turns := ts }) hlive]

/-- Where the guarded event changes nothing, neither does its step, in reset too. -/
theorem whenLive_same {f : State → State} (hst : s.st ≠ 3#2) (hf : s.rst = false → f s = s) :
    whenLive f s = .next s := by
  cases hrst : s.rst
  · rw [whenLive_live ⟨hrst, hst⟩, hf hrst]
  · simp [whenLive, hrst]

theorem txAccept_inTx (hst : s.st = 1#2) : txAccept s = sendByte s := if_pos hst

theorem txAccept_outsideTx (hst : s.st ≠ 1#2) : txAccept s = s := if_neg hst

theorem rxTake_head {v : Byte} {rest : List Byte} (hst : s.st = 2#2) (hq : s.rxq = v :: rest) :
    rxTake s = takeByte v rest s := by
  simp [rxTake, hst, hq]

theorem rxTake_disabled (h : s.st ≠ 2#2 ∨ s.rxq = []) : rxTake s = s := by
  unfold rxTake
  rcases h with h | h
  · exact if_neg h
  · simp [h]

/-- `RX_TAKE` takes the byte at the head of the queue (R89). -/
theorem runEvent_rxTake {v : Byte} {rest : List Byte} (hrst : s.rst = false) (hst : s.st = 2#2)
    (hq : s.rxq = v :: rest) : runEvent .rxTake s = .next (takeByte v rest s) :=
  (whenLive_live (live_of_busy hrst (.inr hst))).trans (congrArg _ (rxTake_head hst hq))

theorem tick_counts (hst : s.st = 2#2) (hlt : s.tmr < s.cfgTReply) : tick s = { s with tmr := s.tmr + 1 } :=
  if_pos ⟨hst, hlt⟩

theorem runEvent_tick (hrst : s.rst = false) (hst : s.st = 2#2) (hlt : s.tmr < s.cfgTReply) :
    runEvent .tick s = .next { s with tmr := s.tmr + 1 } :=
  (whenLive_live (live_of_busy hrst (.inr hst))).trans (congrArg _ (tick_counts hst hlt))

theorem tick_disabled (h : s.st ≠ 2#2 ∨ s.cfgTReply ≤ s.tmr) : tick s = s :=
  if_neg fun hg => h.elim (fun hst => hst hg.1) (fun hle => Nat.not_lt.mpr hle hg.2)

theorem timeout_none (h : timeoutEnabled s = true) (hn : s.rxn = 0#3) :
    timeout s = complete statusNoResponse causeNone 0x00#8 0x00#8 [] s := by
  simp [timeout, h, hn]

theorem timeout_short (h : timeoutEnabled s = true) (hn : s.rxn ≠ 0#3) :
    timeout s = complete statusMalformed causeLength 0x00#8 0x00#8 (s.rxbuf.firstBytes s.rxn) s := by
  simp [timeout, h, hn]

theorem timeout_disabled (h : s.st ≠ 2#2 ∨ s.rxq ≠ [] ∨ s.tmr < s.cfgTReply) : timeout s = s := by
  refine if_neg fun hg => ?_
  obtain ⟨hst, hq, hdue⟩ := timeoutEnabled_iff.mp hg
  exact h.elim (· hst) (·.elim (· hq) (Nat.not_lt.mpr hdue))

/-- A request that finds the block in `TX` or `RX` is held, whatever the reset line (R86). -/
theorem request_busy (a o : Byte) (hst : s.st = 1#2 ∨ s.st = 2#2) : request a o s = .next (holdRequest a o s) := by
  rcases hst with hst | hst <;> simp [request, State.reqReady, hst]

/-- A held request is again the one at the port, so nothing has changed (R86). -/
theorem presentRequest_busy (hst : s.st = 1#2 ∨ s.st = 2#2) : presentRequest s = .next s := by
  unfold presentRequest
  split
  · rename_i r rest hreq
    rw [runRequest_eq, request_busy (s := { s with requests := rest }) _ _ hst]
    simp only [holdRequest, ← hreq]
  · exact whenLive_same (by rcases hst with hst | hst <;> simp [hst]) fun _ => rfl

theorem presentRequest_nil (hreq : s.requests = []) (hst : s.st ≠ 3#2) : presentRequest s = .next s := by
  simp only [presentRequest, hreq]
  exact whenLive_same hst fun _ => rfl

/-- `REQ` of a legal opcode, where the block is ready, accepts it (R84). -/
theorem presentRequest_accepts {a o : Byte} {rest : List Request} (hready : s.reqReady = true)
    (ho : o ≤ 0x05#8) (hreq : s.requests = ⟨a, o⟩ :: rest) :
    presentRequest s = .next (acceptRequest a o ⟨beginCode, a, o, checksum a o⟩ { s with requests := rest }) := by
  simp only [presentRequest, hreq]
  rw [runRequest_eq, request_ready (s := { s with requests := rest }) hready, takeRequest_legal _ ho]

/-- `REQ` of any other opcode byte, where the block is ready, completes `INVALID_OPCODE` (R85). -/
theorem presentRequest_refuses {a o : Byte} {rest : List Request} (hready : s.reqReady = true)
    (ho : 0x05#8 < o) (hreq : s.requests = ⟨a, o⟩ :: rest) :
    presentRequest s =
      .next (complete statusInvalidOpcode causeNone 0x00#8 0x00#8 [] { s with requests := rest }) := by
  simp only [presentRequest, hreq]
  rw [runRequest_eq, request_ready (s := { s with requests := rest }) hready, takeRequest_illegal _ ho]

theorem takeByte_counts {v : Byte} {rest : List Byte} (hn : s.rxn < 3#3) :
    takeByte v rest s = { s with rxq := rest, rxbuf := s.rxbuf.set s.rxn v, rxn := s.rxn + 1#3 } := by
  simp [takeByte, hn]

theorem takeByte_last {v : Byte} {rest : List Byte} (hn : s.rxn = 3#3) :
    takeByte v rest s =
      decodeDone [s.rxbuf.b0, s.rxbuf.b1, s.rxbuf.b2, v] { s with rxq := rest, rxbuf := { s.rxbuf with b3 := v } } := by
  simp [takeByte, hn]

/-- `DECODE_DONE` of bytes DECODE accepts (R90). -/
theorem decodeDone_ok {bytes : List Byte} {a o : Byte} (h : decodeBytes bytes = .ok a o) (s : State) :
    decodeDone bytes s = complete statusOkReply causeNone a o bytes s := by
  simp [decodeDone, h]

/-- `DECODE_DONE` of bytes DECODE refuses (R90). -/
theorem decodeDone_mf {bytes : List Byte} {c : Malformed} (h : decodeBytes bytes = .mf c) (s : State) :
    decodeDone bytes s = complete statusMalformed (causeCode c) 0x00#8 0x00#8 bytes s := by
  simp [decodeDone, h]

/-- `DECODE_DONE` completes `OK_REPLY` or `MALFORMED`, for a caller that need not know which (R90). -/
theorem decodeDone_completes (bytes : List Byte) (s : State) :
    ∃ k c a o, (k = 2#3 ∨ k = 4#3) ∧ decodeDone bytes s = complete k c a o bytes s := by
  rcases decodeDone_cases bytes s with ⟨a, o, -, heq⟩ | ⟨c, -, heq⟩
  · exact ⟨_, _, a, o, .inl rfl, heq⟩
  · exact ⟨_, _, _, _, .inr rfl, heq⟩

/-! ### Sending a frame -/

theorem sendByte_counts (h : s.txi < 3#3) :
    sendByte s = { s with txStream := s.txStream ++ [s.txData], txi := s.txi + 1#3 } := by
  simp [sendByte, h]

theorem sendByte_last (h : ¬s.txi < 3#3) :
    sendByte s = frameSent { s with txStream := s.txStream ++ [s.txData] } := by
  simp [sendByte, frameSent, h]

theorem frameSent_fireAndForget (hf : fireAndForget s.reqOp = true) :
    frameSent s = complete statusOkNoReply causeNone 0x00#8 0x00#8 [] s := if_pos hf

theorem frameSent_ackClass (hf : fireAndForget s.reqOp = false) :
    frameSent s = { s with st := stRx, txi := 0#3, rxn := 0#3, tmr := 0 } := by
  simp [frameSent, hf]

theorem runEvent_txAccept (hst : s.st = 1#2) (hrst : s.rst = false) : runEvent .txAccept s = .next (sendByte s) :=
  (whenLive_live (live_of_busy hrst (.inl hst))).trans (congrArg _ (txAccept_inTx hst))

theorem step_txAccept (hturns : s.turns = .txAccept :: ts) (hst : s.st = 1#2) (hrst : s.rst = false) :
    step s = .next (sendByte { s with turns := ts }) :=
  (step_turn hturns).trans (runEvent_txAccept (s := { s with turns := ts }) hst hrst)

end

/-! ### The rules of the requests -/

/-- Every instruction is accepted where the block is ready, with its frame to send (R84, R96 to R101). -/
theorem exec_ready (i : Instr) {s : State} (h : s.reqReady = true) :
    exec i s = .next (acceptRequest i.request.addr i.request.op (encode i) s) := by
  rw [exec_eq_request, request_ready h, takeRequest_legal s i.request_op_legal]
  rfl

/-- Settles O13: both are the case of `exec_ready` for their instruction. -/
theorem fireAndForgetRequestsAreAccepted : Obligations.FireAndForgetRequestsAreAccepted :=
  fun _ a h => ⟨exec_ready (.off a) h, exec_ready (.on a) h⟩

/-- Settles O14: all four are the case of `exec_ready` for their instruction. -/
theorem ackClassRequestsAreAccepted : Obligations.AckClassRequestsAreAccepted :=
  fun _ a h =>
    ⟨exec_ready (.offAck a) h, exec_ready (.onAck a) h, exec_ready (.negateAck a) h, exec_ready (.queryAck a) h⟩

/-- Settles O15: the request at the port is taken, and its opcode has a frame. -/
theorem requestIsAccepted : Obligations.RequestIsAccepted := by
  intro s a o rest ts hturns hreq hst hrst ho
  have hready : s.reqReady = true := reqReady_iff.mpr ⟨hrst, hst⟩
  exact ⟨_, encodeRaw_legal ho,
    (step_turn hturns).trans (presentRequest_accepts (s := { s with turns := ts }) hready ho hreq)⟩

/-- Settles O16: the request at the port is taken, and its opcode byte has no frame. -/
theorem invalidOpcodeIsRefused : Obligations.InvalidOpcodeIsRefused := by
  intro s a o rest ts hturns hreq hst hrst ho
  have hready : s.reqReady = true := reqReady_iff.mpr ⟨hrst, hst⟩
  have hstep := (step_turn hturns).trans (presentRequest_refuses (s := { s with turns := ts }) hready ho hreq)
  refine ⟨encodeRaw_illegal ho, _, hstep, ?_, ?_, rfl, rfl, rfl⟩
  · simp only [complete, ← hst]
    rfl
  · simp [State.txValid]

/-- Settles O17: a busy block holds every request, and a held request stands at the port as before. -/
theorem requestIsHeldWhileBusy : Obligations.RequestIsHeldWhileBusy := by
  refine ⟨fun s hst => ?notReady, fun s i hst => ?instr, fun s r rest ts hturns _ hst => ?event⟩
  case notReady => simp [State.reqReady, hst]
  case instr => exact (exec_eq_request i s).trans (request_busy _ _ hst)
  case event => exact (step_turn hturns).trans (presentRequest_busy (s := { s with turns := ts }) hst)

/-- Settles O18: an instruction is accepted, which writes the registers of R84, or is held. -/
theorem requestFrame : Obligations.RequestFrame := by
  intro i s t h
  rw [exec_eq_request] at h
  rcases request_next h with ⟨hready, rfl⟩ | ⟨hready, rfl⟩
  · rw [takeRequest_legal s i.request_op_legal]
    simp [hready]
  · simp [hready, holdRequest]

/-! ### The rules of the events -/

/-- Settles O19: the three cases of `sendByte`. -/
theorem txAcceptSendsTheShownByte : Obligations.TxAcceptSendsTheShownByte := by
  intro s ts hturns hst hrst
  refine ⟨by simp [State.txValid, hst, hrst], rfl, by simp [timeoutEnabled, hst], ?_⟩
  rw [step_txAccept hturns hst hrst]
  split
  case isTrue hi => exact congrArg _ (sendByte_counts (s := { s with turns := ts }) hi)
  case isFalse hi =>
    rw [sendByte_last (s := { s with turns := ts }) hi]
    split
    case isTrue ho => exact congrArg _ (frameSent_fireAndForget (fireAndForget_iff.mpr ho))
    case isFalse ho =>
      exact congrArg _ (frameSent_ackClass (Bool.eq_false_iff.mpr (mt fireAndForget_iff.mp ho)))

/-- Settles O22: `rxArrive` by the room left in the queue. -/
theorem rxArriveQueuesOrOverflows : Obligations.RxArriveQueuesOrOverflows := by
  intro s v ts hturns hrst hst
  rw [step_whenLive hturns (fun _ => rfl) ⟨hrst, hst⟩]
  exact ⟨fun hroom => congrArg _ (if_pos hroom), fun hfull => congrArg _ (if_neg (Nat.not_lt.mpr hfull))⟩

section
variable {s t : State} {ts : List Event}

/-- The fourth byte goes to `DECODE_DONE` with the three before it (R89, R90). -/
theorem step_rxTake_last {v : Byte} {rest : List Byte} (hturns : s.turns = .rxTake :: ts) (hrst : s.rst = false)
    (hst : s.st = 2#2) (hq : s.rxq = v :: rest) (hn : s.rxn = 3#3) :
    step s = .next (decodeDone [s.rxbuf.b0, s.rxbuf.b1, s.rxbuf.b2, v]
      { s with turns := ts, rxq := rest, rxbuf := { s.rxbuf with b3 := v } }) :=
  (step_turn hturns).trans ((runEvent_rxTake (s := { s with turns := ts }) hrst hst hq).trans
    (congrArg _ (takeByte_last (s := { s with turns := ts }) hn)))

/-- `rxn` counts up from at most 2, or goes to 0 (R24). -/
theorem step_rxn_le (hn : s.rxn ≤ 3#3) (hstep : step s = .next t) : t.rxn ≤ 3#3 := by
  cases he : (nextEvent s).ofReset
  · by_cases hne : t.rxn = s.rxn
    · rwa [hne]
    · rcases (step_writes hstep he).rxn hne with ⟨-, -, -, hlt, -, hcount⟩ | hrx | hend
      · rw [hcount]
        simp only at hlt ⊢
        bv_omega
      · simp [hrx.rxn]
      · simp [hend.rxn]
  · rcases step_reset hstep he with rfl | ⟨b, rfl⟩
    · exact hn
    · simp

/-- No byte that arrives touches the timer (R89). -/
theorem step_rxArrive_tmr {v : Byte} (he : nextEvent s = .rxArrive v) (hstep : step s = .next t) : t.tmr = s.tmr := by
  have heff := step_effect hstep
  rw [he] at heff
  cases heff with
  | none => rfl
  | arrive => rcases rxArrive_cases v { s with turns := s.turns.tail } with ⟨-, heq⟩ | ⟨-, heq⟩ <;> rw [heq]

end

/-- Settles O24: `takeByte` by the number of bytes taken before, and what a step can write to `rxn` and `tmr`. -/
theorem rxTakeTakesTheHead : Obligations.RxTakeTakesTheHead := by
  refine ⟨fun s v rest ts hturns hrst hst hq => ⟨fun hn => ?counted, step_rxTake_last hturns hrst hst hq⟩,
    fun s t => step_rxn_le, fun s t v => step_rxArrive_tmr⟩
  case counted =>
    exact (step_turn hturns).trans ((runEvent_rxTake (s := { s with turns := ts }) hrst hst hq).trans
      (congrArg _ (takeByte_counts (s := { s with turns := ts }) hn)))

/-- Settles O25: the fourth byte goes to `DECODE_DONE`, which completes as DECODE answers. -/
theorem fourthByteDecodes : Obligations.FourthByteDecodes := by
  refine ⟨rfl, rfl, rfl, fun s v rest ts hturns hrst hst hq hn => ?_⟩
  rw [step_rxTake_last hturns hrst hst hq hn]
  exact ⟨fun a o h => congrArg _ (decodeDone_ok h _), fun c h => congrArg _ (decodeDone_mf h _)⟩

/-- Settles O26: DECODE's answer for the bytes read makes the response, and no request register is among them. -/
theorem replyIsNotComparedWithTheRequest : Obligations.ReplyIsNotComparedWithTheRequest := by
  rintro s reqA reqO a o rest ts hturns hrst hst hn ho h0 rfl rfl hq
  have hd : decodeBytes [s.rxbuf.b0, s.rxbuf.b1, s.rxbuf.b2, checksum s.rxbuf.b1 s.rxbuf.b2] =
      .ok s.rxbuf.b1 s.rxbuf.b2 := by
    rw [h0]
    exact decodeBytes_of_checksum ho rfl
  have hstep := step_rxTake_last (s := { s with reqAddr := reqA, reqOp := reqO }) hturns hrst hst hq hn
  exact ⟨_, hstep.trans (congrArg _ (decodeDone_ok hd _)), rfl, rfl, rfl, rfl, rfl⟩

/-- Settles O27: `tick` in `RX` by the value of the timer, and outside `RX`, in reset too. -/
theorem tickCountsInRx : Obligations.TickCountsInRx := by
  intro s ts hturns
  rw [step_turn hturns]
  refine ⟨fun hrst hst hlt => runEvent_tick (s := { s with turns := ts }) hrst hst hlt,
    fun hrst hst hle => ?stops, fun hst => ?elsewhere⟩
  case stops =>
    have hlegal : s.st ≠ 3#2 := by simp [hst]
    exact whenLive_same (s := { s with turns := ts }) hlegal fun _ => tick_disabled (.inr hle)
  case elsewhere =>
    have hne : s.st ≠ 3#2 ∧ s.st ≠ 2#2 := by rcases hst with hst | hst <;> simp [hst]
    exact whenLive_same (s := { s with turns := ts }) hne.left fun _ => tick_disabled (.inl hne.right)

/-- The report of a short read of one to three bytes: its bytes, and 0x00 behind them (R30, R93). -/
theorem ofBytes_firstBytes {n : BitVec 3} (q : Quad) (h1 : 1#3 ≤ n) (h3 : n ≤ 3#3) :
    Quad.ofBytes (q.firstBytes n) =
      ⟨q.b0, if 2#3 ≤ n then q.b1 else 0x00#8, if n = 3#3 then q.b2 else 0x00#8, 0x00#8⟩ := by
  rcases index_cases h3 with rfl | rfl | rfl | rfl
  · exact absurd h1 (by decide)
  · rfl
  · rfl
  · rfl

/-- Settles O28: the guard, and `timeout` by the number of bytes taken. -/
theorem timeoutEndsTheRead : Obligations.TimeoutEndsTheRead := by
  refine ⟨fun s => timeoutEnabled_iff, fun s ts hturns hrst hdue => ?_⟩
  have hst : s.st = 2#2 := (timeoutEnabled_iff.mp hdue).1
  rw [step_whenLive hturns (fun _ => rfl) (live_of_busy hrst (.inr hst))]
  refine ⟨fun hn => congrArg _ (timeout_none (s := { s with turns := ts }) hdue hn), fun h1 h3 => ?short⟩
  case short =>
    have hpos : s.rxn ≠ 0#3 := by bv_omega
    have hlen := Quad.firstBytes_length s.rxbuf h3
    have hcount : BitVec.ofNat 3 (s.rxbuf.firstBytes s.rxn).length = s.rxn := by
      rw [hlen, BitVec.ofNat_toNat, BitVec.setWidth_eq]
    have hlt : s.rxn.toNat ≠ 4 := by bv_omega
    refine ⟨decodeBytes_short (by rwa [← hlen] at hlt), congrArg _ ?_⟩
    rw [timeout_short (s := { s with turns := ts }) hdue hpos]
    simp only [complete, hcount, ofBytes_firstBytes _ h1 h3]

/-- Settles O29: each event leaves the state alone where its guard is false, in reset too. -/
theorem disabledEventsHaveNoEffect : Obligations.DisabledEventsHaveNoEffect := by
  intro s ts hst
  have hsame : ∀ {e : Event} {f : State → State}, s.turns = e :: ts → (∀ u, runEvent e u = whenLive f u) →
      (s.rst = false → f { s with turns := ts } = { s with turns := ts }) → step s = .next { s with turns := ts } :=
    fun hturns he hf => by rw [step_turn hturns, he, whenLive_same (s := { s with turns := ts }) hst hf]
  refine ⟨fun hturns hvalid => hsame hturns (fun _ => rfl) fun hrst => ?send,
    fun hturns h => hsame hturns (fun _ => rfl) fun _ => rxTake_disabled h,
    fun hturns h => hsame hturns (fun _ => rfl) fun _ => timeout_disabled h,
    fun hturns hreq => (step_turn hturns).trans (presentRequest_nil (s := { s with turns := ts }) hreq hst),
    fun hturns hrst => (step_turn hturns).trans ?release⟩
  case send =>
    have htx : s.st ≠ 1#2 := by simpa [State.txValid, hrst] using hvalid
    exact txAccept_outsideTx (s := { s with turns := ts }) htx
  case release => simp [runEvent, releaseReset, hrst]

/-! ### Four bytes, whatever falls between them -/

section
variable {s : State}

/-- In `TX` an event of the session other than `TX_ACCEPT` can only touch the receive queue (R86, R88). -/
theorem runEvent_inTx {e : Event} (hrst : s.rst = false) (hst : s.st = 1#2) (he : e.ofSession = true)
    (hne : e ≠ .txAccept) : ∃ q b, runEvent e s = .next { s with rxq := q, rxqOvf := b } := by
  have hlive : s.live := live_of_busy hrst (.inl hst)
  have hrx : s.st ≠ 2#2 := by simp [hst]
  have hlegal : s.st ≠ 3#2 := hlive.2
  cases e with
  | req => exact ⟨s.rxq, s.rxqOvf, presentRequest_busy (.inl hst)⟩
  | txAccept => exact absurd rfl hne
  | rxArrive v =>
    rcases rxArrive_cases v s with ⟨-, heq⟩ | ⟨-, heq⟩ <;>
      exact ⟨_, _, (whenLive_live hlive).trans (congrArg _ heq)⟩
  | rxTake => exact ⟨s.rxq, s.rxqOvf, whenLive_same hlegal fun _ => rxTake_disabled (.inl hrx)⟩
  | tick => exact ⟨s.rxq, s.rxqOvf, whenLive_same hlegal fun _ => tick_disabled (.inl hrx)⟩
  | timeout => exact ⟨s.rxq, s.rxqOvf, whenLive_same hlegal fun _ => timeout_disabled (.inl hrx)⟩
  | assertReset | releaseReset | driveCfg | readStatus => simp [Event.ofSession] at he

end

/-- The block is in `TX` with a frame, `n` of whose bytes have gone out behind `sent`; `rest` waits on the request
port. -/
structure Sending (o : Byte) (f : Quad) (rest : List Request) (sent : List Byte) (n : Nat) (s : State) : Prop where
  rst : s.rst = false
  st : s.st = 1#2
  reqOp : s.reqOp = o
  txbuf : s.txbuf = f
  txi : s.txi = BitVec.ofNat 3 n
  rspValid : s.rspValid = false
  requests : s.requests = rest
  txStream : s.txStream = sent ++ f.toList.take n

section
variable {o : Byte} {f : Quad} {rest : List Request} {sent : List Byte} {n : Nat} {s : State} {ts : List Event}

/-- An accepted request starts sending its frame (R84). -/
theorem step_req_sending {a : Byte} (hready : s.reqReady = true) (hf : encodeRaw a o = some f)
    (hreq : s.requests = ⟨a, o⟩ :: rest) (hturns : s.turns = .req :: ts) :
    ∃ t, step s = .next t ∧ t.turns = ts ∧ Sending o f rest s.txStream 0 t := by
  obtain ⟨ho, rfl⟩ := encodeRaw_some hf
  obtain ⟨hrst, -⟩ := reqReady_iff.mp hready
  refine ⟨_, (step_turn hturns).trans (presentRequest_accepts (by exact hready) ho hreq), rfl, ?_⟩
  exact ⟨hrst, rfl, rfl, rfl, rfl, rfl, rfl, by simp⟩

/-- Between two `TX_ACCEPT` events nothing of the sending changes (R95, R103). -/
theorem Sending.step_other {e : Event} (h : Sending o f rest sent n s) (hturns : s.turns = e :: ts)
    (he : e.ofSession = true) (hne : e ≠ .txAccept) :
    ∃ t, step s = .next t ∧ t.turns = ts ∧ Sending o f rest sent n t := by
  obtain ⟨q, b, hrun⟩ := runEvent_inTx (s := { s with turns := ts }) h.rst h.st he hne
  exact ⟨_, (step_turn hturns).trans hrun, rfl, { h with }⟩

/-- The byte that goes out next is the frame's next byte (R21, R38). -/
theorem Sending.txStream_succ (h : Sending o f rest sent n s) (hn : n < 4) :
    s.txStream ++ [s.txData] = sent ++ f.toList.take (n + 1) := by
  rw [State.txData, h.txStream, h.txi, h.txbuf, List.append_assoc, Quad.take_append_get f hn]

/-- One of the first three `TX_ACCEPT` events sends the frame's next byte and stays in `TX` (R87). -/
theorem Sending.step_counts (h : Sending o f rest sent n s) (hn : n < 3) (hturns : s.turns = .txAccept :: ts) :
    ∃ t, step s = .next t ∧ t.turns = ts ∧ Sending o f rest sent (n + 1) t := by
  have hi : s.txi < 3#3 := by rw [h.txi]; bv_omega
  refine ⟨_, (step_txAccept hturns h.st h.rst).trans (congrArg _ (sendByte_counts (by exact hi))), rfl, ?_⟩
  exact { h with
    txi := by simp [h.txi, BitVec.ofNat_add]
    txStream := h.txStream_succ (by omega) }

/-- Fewer than four `TX_ACCEPT` events among events of the session carry as many bytes of the frame (R103). -/
theorem Sending.run {es : List Event} (h : Sending o f rest sent n s) (hturns : s.turns = es ++ ts)
    (hes : ∀ e ∈ es, e.ofSession = true) (hcount : n + es.countP Event.isTxAccept < 4) :
    ∃ t, runFor es.length s = .next t ∧ t.turns = ts ∧ Sending o f rest sent (n + es.countP Event.isTxAccept) t := by
  induction es generalizing n s with
  | nil => exact ⟨s, rfl, hturns, h⟩
  | cons e es ih =>
    obtain ⟨he, hes'⟩ := List.forall_mem_cons.mp hes
    by_cases htx : e = .txAccept
    · subst htx
      have hadd : n + (Event.txAccept :: es).countP Event.isTxAccept = n + 1 + es.countP Event.isTxAccept := by
        rw [List.countP_cons_of_pos rfl]
        omega
      rw [hadd] at hcount ⊢
      obtain ⟨u, hstep, hu, hsend⟩ := h.step_counts (by omega) hturns
      rw [List.length_cons, runFor_succ hstep]
      exact ih hsend hu hes' hcount
    · rw [List.countP_cons_of_neg (by simpa [Event.isTxAccept] using htx)] at hcount ⊢
      obtain ⟨u, hstep, hu, hsend⟩ := h.step_other hturns he htx
      rw [List.length_cons, runFor_succ hstep]
      exact ih hsend hu hes' hcount

/-- The same from the `REQ` event that is accepted on (R84, R103). -/
theorem runFor_req_sending {a : Byte} {es : List Event} (hready : s.reqReady = true) (hf : encodeRaw a o = some f)
    (hreq : s.requests = ⟨a, o⟩ :: rest) (hturns : s.turns = .req :: es ++ ts) (hes : ∀ e ∈ es, e.ofSession = true)
    (hcount : es.countP Event.isTxAccept < 4) :
    ∃ t, runFor (es.length + 1) s = .next t ∧ t.turns = ts ∧
      Sending o f rest s.txStream (es.countP Event.isTxAccept) t := by
  obtain ⟨u, hstep, hu, hsend⟩ := step_req_sending hready hf hreq hturns
  rw [runFor_succ hstep]
  simpa using hsend.run hu hes (by simpa using hcount)

end

/-- A byte goes out only in `TX` (R87). -/
theorem Effect.txStream_outsideTx {s t : State} {e : Event} (h : Effect s e t) (hst : s.st ≠ 1#2) :
    t.txStream = s.txStream := by
  cases h with
  | send _ htx => exact absurd htx hst
  | arrive v => rcases rxArrive_cases v s with ⟨-, heq⟩ | ⟨-, heq⟩ <;> rw [heq]
  | take v rest =>
    rcases takeByte_cases v rest s with ⟨-, heq⟩ | ⟨-, heq⟩ <;> rw [heq]
    obtain ⟨k, c, a, o, -, hdone⟩ := decodeDone_completes [s.rxbuf.b0, s.rxbuf.b1, s.rxbuf.b2, v]
      { s with rxq := rest, rxbuf := s.rxbuf.set s.rxn v }
    rw [hdone]
    rfl
  | none | accept | refuse | count | noResponse | shortRead | assert | release | drive => rfl

/-- A request whose opcode byte has no frame leaves `st` and the TX stream as they are (R85). -/
theorem Effect.of_rejected {s t : State} {a o : Byte} {rest : List Request} (h : Effect s .req t)
    (hreq : s.requests = ⟨a, o⟩ :: rest) (hrej : encodeRaw a o = .none) : t.txStream = s.txStream ∧ t.st = s.st := by
  cases h with
  | none => exact ⟨rfl, rfl⟩
  | accept a' o' rest' hreq' _ ho =>
    obtain ⟨⟨rfl, rfl⟩, -⟩ : (a' = a ∧ o' = o) ∧ rest' = rest := by simpa [hreq] using hreq'.symm.trans hreq
    simp [encodeRaw_legal ho] at hrej
  | refuse _ _ _ _ hready => exact ⟨rfl, (reqReady_iff.mp hready).2.symm⟩

/-- Settles O20: `Sending` counts the bytes that have gone out, whatever events fall between two `TX_ACCEPT`; the
fourth is the last case of `sendByte`. -/
theorem fourTxAcceptsCarryTheFrame : Obligations.FourTxAcceptsCarryTheFrame := by
  refine ⟨fun s a o f rest es ts hready hf hreq hturns hes hcount => ?inTx,
    fun s a o f rest es ts hready hf hreq hturns hes hcount => ?fourth,
    fun s t a o rest hreq hrej he hstep => ?refused, fun s t hst hstep => (step_effect hstep).txStream_outsideTx hst⟩
  case inTx =>
    obtain ⟨t, hrun, ht, hsend⟩ := runFor_req_sending hready hf hreq hturns hes hcount
    exact ⟨t, hrun, ht, hsend.requests, hsend.st, hsend.rspValid, hsend.txStream⟩
  case fourth =>
    obtain ⟨u, hrun, hu, hsend⟩ := runFor_req_sending hready hf hreq hturns hes (by omega)
    rw [hcount] at hsend
    have hlast : ¬u.txi < 3#3 := by rw [hsend.txi]; decide
    have hsent : u.txStream ++ [u.txData] = s.txStream ++ f.toList := hsend.txStream_succ (by decide)
    have hstep : step u = .next (frameSent { u with turns := ts, txStream := u.txStream ++ [u.txData] }) :=
      (step_txAccept hu hsend.st hsend.rst).trans (congrArg _ (sendByte_last (s := { u with turns := ts }) hlast))
    refine ⟨_, (runFor_add (k := 1) hrun).trans (runFor_succ hstep), ?_⟩
    cases hff : fireAndForget o
    · rw [frameSent_ackClass (by simpa [hsend.reqOp] using hff)]
      refine ⟨rfl, hsend.requests, hsent, fun ho => ?_, fun _ => ⟨rfl, hsend.rspValid, rfl, rfl⟩⟩
      simp [fireAndForget_of_le ho] at hff
    · rw [frameSent_fireAndForget (by simpa [hsend.reqOp] using hff)]
      refine ⟨rfl, hsend.requests, hsent, fun _ => ⟨rfl, rfl, rfl⟩, fun ho => ?_⟩
      simp [not_fireAndForget_of_le ho] at hff
  case refused =>
    have heff := step_effect hstep
    rw [he] at heff
    exact heff.of_rejected hreq hrej

/-! ### The untimed model admits every run -/

section
variable {s t : State} {e : Event}

/-- A state of the untimed model with the events to come chosen. -/
def untimedWith (es : List Event) (s : State) : State := { untimed s with turns := es }

/-- An event that has no effect in the untimed model, whatever the state: in reset a tick, out of reset a release. -/
def idleEvent (s : State) : Event := if s.rst = true then .tick else .releaseReset

theorem runEvent_idleEvent (es : List Event) (s : State) :
    runEvent (idleEvent s) (untimedWith es s) = .next (untimedWith es s) := by
  cases hrst : s.rst <;> simp [idleEvent, hrst, runEvent, whenLive, releaseReset, untimedWith, untimed]

theorem sendByte_untimedWith (es : List Event) (s : State) :
    sendByte (untimedWith es s) = untimedWith es (sendByte s) := by
  simp only [sendByte, apply_ite (untimedWith es)]
  rfl

theorem rxArrive_untimedWith (v : Byte) (es : List Event) (s : State) :
    rxArrive v (untimedWith es s) = untimedWith es (rxArrive v s) := by
  simp only [rxArrive, apply_ite (untimedWith es)]
  rfl

theorem decodeDone_untimedWith (bytes : List Byte) (es : List Event) (s : State) :
    decodeDone bytes (untimedWith es s) = untimedWith es (decodeDone bytes s) := by
  unfold decodeDone
  cases decodeBytes bytes <;> rfl

theorem takeByte_untimedWith (v : Byte) (rest : List Byte) (es : List Event) (s : State) :
    takeByte v rest (untimedWith es s) = untimedWith es (takeByte v rest s) := by
  simp only [takeByte, apply_ite (untimedWith es), ← decodeDone_untimedWith]
  rfl

/-- With no timer, `TIMEOUT` is enabled as soon as `RX` finds the queue empty (R94). -/
theorem timeoutEnabled_untimed : timeoutEnabled (untimed s) = true ↔ s.st = 2#2 ∧ s.rxq = [] := by
  simp [timeoutEnabled_iff, untimed]

/-- The untimed model has an event for every effect: the same one where it touches more than the timer and its limit,
and otherwise one that changes nothing. -/
theorem Effect.untimed (h : Effect s e t) :
    ∃ e', ∀ es, runEvent e' (untimedWith es s) = .next (untimedWith es t) := by
  have hlive : ∀ {es}, s.live → (untimedWith es s).live := id
  have hdue : ∀ {es}, s.st = 2#2 → s.rxq = [] → timeoutEnabled (untimedWith es s) = true :=
    fun hst hq => timeoutEnabled_untimed.mpr ⟨hst, hq⟩
  cases h with
  | none | count | drive => exact ⟨idleEvent s, fun es => runEvent_idleEvent es s⟩
  | accept a o rest hreq hready ho =>
    exact ⟨.req, fun es => presentRequest_accepts (s := untimedWith es s) hready ho hreq⟩
  | refuse a o rest hreq hready ho =>
    exact ⟨.req, fun es => presentRequest_refuses (s := untimedWith es s) hready ho hreq⟩
  | send hl hst =>
    refine ⟨.txAccept, fun es => (whenLive_live (hlive hl)).trans (congrArg _ ?_)⟩
    exact (txAccept_inTx (s := untimedWith es s) hst).trans (sendByte_untimedWith es s)
  | arrive v hl =>
    exact ⟨.rxArrive v, fun es => (whenLive_live (hlive hl)).trans (congrArg _ (rxArrive_untimedWith v es s))⟩
  | take v rest hl hst hq =>
    refine ⟨.rxTake, fun es => (whenLive_live (hlive hl)).trans (congrArg _ ?_)⟩
    exact (rxTake_head (s := untimedWith es s) hst hq).trans (takeByte_untimedWith v rest es s)
  | noResponse hl hst hq _ hn =>
    exact ⟨.timeout, fun es => (whenLive_live (hlive hl)).trans (congrArg _ (timeout_none (hdue hst hq) hn))⟩
  | shortRead hl hst hq _ hn =>
    exact ⟨.timeout, fun es => (whenLive_live (hlive hl)).trans (congrArg _ (timeout_short (hdue hst hq) hn))⟩
  | assert => exact ⟨.assertReset, fun es => rfl⟩
  | release hrst => exact ⟨.releaseReset, fun es => congrArg _ (if_pos hrst)⟩

/-- The simulation of one step (R94). -/
theorem step_untimed (h : step s = .next t) :
    ∃ e, ∀ es, step (untimedWith (e :: es) s) = .next (untimedWith es t) := by
  obtain ⟨e, he⟩ := (step_effect h).untimed
  exact ⟨e, fun es => (step_turn rfl).trans (he es)⟩

end

/-- Settles O30: by induction on the length of the run, choosing for every step the untimed model's event of
`Effect.untimed`. -/
theorem untimedModelAdmitsEveryRun : Obligations.UntimedModelAdmitsEveryRun := by
  refine ⟨fun s => timeoutEnabled_untimed, fun k s t hrun => ?_⟩
  induction k generalizing s with
  | zero =>
    cases hrun
    exact ⟨[], rfl, rfl⟩
  | succ k ih =>
    obtain ⟨u, hstep, hrest⟩ := runFor_succ_inv hrun
    obtain ⟨e, he⟩ := step_untimed hstep
    obtain ⟨es, hlen, hes⟩ := ih u hrest
    exact ⟨e :: es, by simp [hlen], (runFor_succ (he es)).trans hes⟩

/-! ### Runs of listed events

`Performs es s t` leaves out the list of events to come, which every step shortens: a run of listed events is put
together from the rules of its events. -/

/-- The events `es` lead from `s` to `t`, whatever is listed behind them. -/
def Performs (es : List Event) (s t : State) : Prop :=
  ∀ ts, runFor es.length { s with turns := es ++ ts } = .next { t with turns := ts }

section
variable {s t u : State} {es es' ts : List Event} {e : Event}

theorem Performs.nil (s : State) : Performs [] s s := fun _ => rfl

theorem Performs.cons (h : ∀ ts, runEvent e { s with turns := ts } = .next { u with turns := ts })
    (h' : Performs es u t) : Performs (e :: es) s t := fun ts =>
  (runFor_succ ((step_turn (s := { s with turns := e :: (es ++ ts) }) rfl).trans (h (es ++ ts)))).trans (h' ts)

theorem Performs.append (h : Performs es s u) (h' : Performs es' u t) : Performs (es ++ es') s t := by
  intro ts
  rw [List.length_append, List.append_assoc, runFor_add (h (es' ++ ts))]
  exact h' ts

/-- A state that lists the events performs them. -/
theorem Performs.runFor_eq (h : Performs es s t) (hturns : s.turns = es ++ ts) :
    runFor es.length s = .next { t with turns := ts } := by
  have hrun := h ts
  rwa [← hturns] at hrun

/-! #### Sending -/

/-- The block after the first `n` bytes of its frame (R87). -/
def partlySent (n : Nat) (s : State) : State :=
  { s with txStream := s.txStream ++ s.txbuf.toList.take n, txi := BitVec.ofNat 3 n }

theorem partlySent_zero (hi : s.txi = 0#3) : partlySent 0 s = s := by
  simp [partlySent, ← hi]

theorem sendByte_partlySent {n : Nat} (hn : n < 3) (s : State) :
    sendByte (partlySent n s) = partlySent (n + 1) s := by
  have hi : (partlySent n s).txi < 3#3 := by
    simp only [partlySent]
    bv_omega
  rw [sendByte_counts hi]
  simp [partlySent, State.txData, Quad.take_append_get _ (show n < 4 by omega), BitVec.ofNat_add]

theorem sendByte_partlySent_three (s : State) :
    sendByte (partlySent 3 s) = frameSent { s with txStream := s.txStream ++ s.txbuf.toList } := by
  rw [sendByte_last (by simp [partlySent])]
  simp only [partlySent, State.txData, List.append_assoc, Quad.take_append_get _ (show 3 < 4 by decide)]
  unfold frameSent
  split <;> rfl

theorem frameSent_withTurns (ts : List Event) (s : State) :
    frameSent { s with turns := ts } = { frameSent s with turns := ts } := by
  unfold frameSent
  split <;> rfl

/-- Four `TX_ACCEPT` events in a row send the whole frame (R87). -/
theorem performs_txAccepts (hst : s.st = 1#2) (hrst : s.rst = false) (hi : s.txi = 0#3) :
    Performs (List.replicate 4 .txAccept) s (frameSent { s with txStream := s.txStream ++ s.txbuf.toList }) := by
  have hcounts : ∀ n < 3, ∀ ts, runEvent .txAccept { partlySent n s with turns := ts } =
      .next { partlySent (n + 1) s with turns := ts } := fun n hn ts =>
    (runEvent_txAccept (s := partlySent n { s with turns := ts }) hst hrst).trans
      (congrArg _ (sendByte_partlySent hn { s with turns := ts }))
  have hlast : ∀ ts, runEvent .txAccept { partlySent 3 s with turns := ts } =
      .next { frameSent { s with txStream := s.txStream ++ s.txbuf.toList } with turns := ts } := fun ts => by
    rw [← frameSent_withTurns]
    exact (runEvent_txAccept (s := partlySent 3 { s with turns := ts }) hst hrst).trans
      (congrArg _ (sendByte_partlySent_three { s with turns := ts }))
  have hchain : Performs (List.replicate 4 .txAccept) (partlySent 0 s) _ :=
    .cons (hcounts 0 (by decide)) (.cons (hcounts 1 (by decide)) (.cons (hcounts 2 (by decide)) (.cons hlast (.nil _))))
  rwa [partlySent_zero hi] at hchain

/-- The block once the request for address `a` and opcode byte `o` has left the port and sent its frame (R84, R87). -/
def requestSent (a o : Byte) (rest : List Request) (s : State) : State :=
  frameSent { s with
    requests := rest, rspValid := false, reqAddr := a, reqOp := o, txbuf := ⟨beginCode, a, o, checksum a o⟩,
    txStream := s.txStream ++ [beginCode, a, o, checksum a o], st := stTx, txi := 0#3 }

/-- `REQ` and four `TX_ACCEPT` events send the frame of a legal opcode (R96 to R101). -/
theorem performs_sendEvents {a o : Byte} {rest : List Request} (hready : s.reqReady = true) (ho : o ≤ 0x05#8)
    (hreq : s.requests = ⟨a, o⟩ :: rest) : Performs sendEvents s (requestSent a o rest s) := by
  obtain ⟨hrst, -⟩ := reqReady_iff.mp hready
  exact .cons (u := acceptRequest a o ⟨beginCode, a, o, checksum a o⟩ { s with requests := rest })
    (fun ts => presentRequest_accepts (s := { s with turns := ts }) hready ho hreq) (performs_txAccepts rfl hrst rfl)

end

/-- Settles O21: after the frame a fire-and-forget request completes, by `frameSent`. -/
theorem fireAndForgetRequestsComplete : Obligations.FireAndForgetRequestsComplete := by
  intro s a o rest ts hready ho hreq hturns
  have hlegal : o ≤ 0x05#8 := by rcases ho with rfl | rfl <;> decide
  refine ((performs_sendEvents hready hlegal hreq).runFor_eq hturns).trans ?_
  rw [requestSent, frameSent_fireAndForget (fireAndForget_iff.mpr ho)]
  rfl

/-! #### Waiting for the reply -/

section
variable {s : State}

/-- The block that waits in `RX` for the reply to the request, with nothing read and its timer at 0 (R87). -/
def awaiting (a o : Byte) (rest : List Request) (s : State) : State :=
  { s with
    requests := rest, rspValid := false, reqAddr := a, reqOp := o, txbuf := ⟨beginCode, a, o, checksum a o⟩,
    txStream := s.txStream ++ [beginCode, a, o, checksum a o], st := stRx, txi := 0#3, rxn := 0#3, tmr := 0 }

theorem performs_sendEvents_ackClass {a o : Byte} {rest : List Request} (hready : s.reqReady = true) (hack : 0x02#8 ≤ o)
    (ho : o ≤ 0x05#8) (hreq : s.requests = ⟨a, o⟩ :: rest) : Performs sendEvents s (awaiting a o rest s) := by
  have hsend := performs_sendEvents hready ho hreq
  rwa [requestSent, frameSent_ackClass (not_fireAndForget_of_le hack)] at hsend

theorem decodeDone_withTurns (bytes : List Byte) (ts : List Event) (s : State) :
    decodeDone bytes { s with turns := ts } = { decodeDone bytes s with turns := ts } := by
  unfold decodeDone
  cases decodeBytes bytes <;> rfl

theorem takeByte_withTurns (v : Byte) (rest : List Byte) (ts : List Event) (s : State) :
    takeByte v rest { s with turns := ts } = { takeByte v rest s with turns := ts } := by
  rcases takeByte_cases v rest s with ⟨hn, heq⟩ | ⟨hn, heq⟩
  · rw [heq]
    exact takeByte_counts hn
  · rw [heq, ← decodeDone_withTurns]
    exact if_neg (BitVec.not_lt.mpr hn)

/-- A byte that finds the queue empty in `RX` is taken at once (R88, R89). -/
theorem performs_arrive_take (hst : s.st = 2#2) (hrst : s.rst = false) (hq : s.rxq = []) (hdepth : 0 < s.rxqDepth)
    (v : Byte) : Performs [.rxArrive v, .rxTake] s (takeByte v [] s) := by
  have hlive : s.live := live_of_busy hrst (.inr hst)
  refine .cons (u := { s with rxq := [v] }) (fun ts => ?_) (.cons (fun ts => ?_) (.nil _))
  · refine (whenLive_live (s := { s with turns := ts }) hlive).trans ?_
    simp [rxArrive, hq, hdepth]
  · rw [← takeByte_withTurns]
    exact runEvent_rxTake (s := { s with rxq := [v], turns := ts }) hrst hst rfl

/-- The session after it has taken each byte as it came (R89). -/
def takeBytes (bytes : List Byte) (s : State) : State := bytes.foldl (fun u v => takeByte v [] u) s

/-- Bytes delivered one by one are taken one by one, up to the fourth (R89). -/
theorem performs_deliver {bytes : List Byte} (hst : s.st = 2#2) (hrst : s.rst = false) (hq : s.rxq = [])
    (hdepth : 0 < s.rxqDepth) (hlen : s.rxn.toNat + bytes.length ≤ 4) :
    Performs (deliver bytes) s (takeBytes bytes s) := by
  induction bytes generalizing s with
  | nil => exact .nil s
  | cons v bytes ih =>
    have hrest : Performs (deliver bytes) (takeByte v [] s) (takeBytes bytes (takeByte v [] s)) := by
      cases bytes with
      | nil => exact .nil _
      | cons w bytes =>
        simp only [List.length_cons] at hlen ih
        have hn : s.rxn < 3#3 := by bv_omega
        have hcount : (s.rxn + 1#3).toNat = s.rxn.toNat + 1 := by bv_omega
        rw [takeByte_counts hn]
        exact ih hst hrst rfl hdepth (by simp only [hcount]; omega)
    exact (performs_arrive_take hst hrst hq hdepth v).append hrest

theorem deliver_length (bytes : List Byte) : (deliver bytes).length = 2 * bytes.length := by
  simp [deliver, Nat.mul_comm]

/-- The time base alone counts the timer up to its limit (R92). -/
theorem performs_ticks {n : Nat} (hst : s.st = 2#2) (hrst : s.rst = false) (hle : s.tmr + n ≤ s.cfgTReply) :
    Performs (List.replicate n .tick) s { s with tmr := s.tmr + n } := by
  induction n generalizing s with
  | zero => exact .nil s
  | succ n ih =>
    have hcount : ∀ ts, runEvent .tick { s with turns := ts } = .next { s with tmr := s.tmr + 1, turns := ts } :=
      fun ts => runEvent_tick (s := { s with turns := ts }) hrst hst (by simp only; omega)
    have hrest := ih (s := { s with tmr := s.tmr + 1 }) hst hrst (by simp only; omega)
    rw [show s.tmr + (n + 1) = s.tmr + 1 + n by omega]
    exact .cons hcount hrest

/-- Fewer than four bytes taken from the start of a read stand in the buffer, and `rxn` counts them (R89). -/
theorem takeBytes_short {bytes : List Byte} (hn : s.rxn = 0#3) (hq : s.rxq = []) (hlen : bytes.length < 4) :
    ∃ buf, takeBytes bytes s = { s with rxbuf := buf, rxn := BitVec.ofNat 3 bytes.length } ∧
      buf.firstBytes (BitVec.ofNat 3 bytes.length) = bytes := by
  obtain ⟨⟩ := s
  simp only at hn hq
  subst hn hq
  match bytes, hlen with
  | [], _ | [_], _ | [_, _], _ | [_, _, _], _ => exact ⟨_, rfl, rfl⟩

/-- Four bytes taken from the start of a read are handed to `DECODE_DONE` (R89, R90). -/
theorem takeBytes_four (hn : s.rxn = 0#3) (hq : s.rxq = []) (b0 b1 b2 b3 : Byte) :
    takeBytes [b0, b1, b2, b3] s = decodeDone [b0, b1, b2, b3] { s with rxbuf := ⟨b0, b1, b2, b3⟩, rxn := 3#3 } := by
  obtain ⟨⟩ := s
  simp only at hn hq
  subst hn hq
  rfl

end

/-- Settles O32: the frame, then four bytes taken as they come, then `DECODE_DONE` of the four. -/
theorem ackClassRequestsCompleteWithTheReply : Obligations.AckClassRequestsCompleteWithTheReply := by
  intro s a o b0 b1 b2 b3 rest ts hready hack hlegal hreq hq hdepth hturns
  obtain ⟨hrst, -⟩ := reqReady_iff.mp hready
  have hreply : Performs (deliver [b0, b1, b2, b3]) (awaiting a o rest s) _ :=
    performs_deliver rfl hrst hq (Nat.lt_of_lt_of_le (by decide) hdepth) (Nat.le_refl 4)
  rw [takeBytes_four (s := awaiting a o rest s) rfl hq] at hreply
  have hrun := ((performs_sendEvents_ackClass hready hack hlegal hreq).append hreply).runFor_eq hturns
  refine ⟨_, hrun, ?_⟩
  rcases decodeDone_cases [b0, b1, b2, b3]
    { awaiting a o rest s with rxbuf := ⟨b0, b1, b2, b3⟩, rxn := 3#3 } with ⟨a', o', hd, heq⟩ | ⟨c, hd, heq⟩ <;>
    rw [heq, hd]
  · refine ⟨?_, nofun, rfl⟩
    rintro _ _ ⟨⟩
    exact ⟨rfl, rfl, rfl, rfl⟩
  · refine ⟨nofun, ?_, rfl⟩
    rintro _ ⟨⟩
    exact ⟨rfl, rfl, rfl, rfl⟩

/-- The block once `TIMEOUT` has ended a read of these bytes: `NO_RESPONSE` of none, else `MALFORMED` by their length
(R93). -/
def completeShort (bytes : List Byte) (s : State) : State :=
  complete (if bytes = [] then statusNoResponse else statusMalformed) (if bytes = [] then causeNone else causeLength)
    0x00#8 0x00#8 bytes s

/-- `TIMEOUT` reports the bytes that stand in the buffer (R93). -/
theorem performs_timeout {s : State} {bytes : List Byte} (hrst : s.rst = false) (hdue : timeoutEnabled s = true)
    (hn : s.rxn = BitVec.ofNat 3 bytes.length) (hbuf : s.rxbuf.firstBytes s.rxn = bytes) :
    Performs [.timeout] s (completeShort bytes s) := by
  obtain ⟨hst, -, -⟩ := timeoutEnabled_iff.mp hdue
  have hlive : s.live := live_of_busy hrst (.inr hst)
  refine .cons (fun ts => (whenLive_live (s := { s with turns := ts }) hlive).trans ?_) (.nil _)
  unfold completeShort
  by_cases hnil : bytes = []
  · simp only [if_pos hnil]
    subst hnil
    exact congrArg _ (timeout_none (s := { s with turns := ts }) hdue hn)
  · have hpos : s.rxn ≠ 0#3 := fun h0 => hnil (by rw [← hbuf, h0]; rfl)
    simp only [if_neg hnil]
    exact congrArg _ ((timeout_short (s := { s with turns := ts }) hdue hpos).trans (by simp only [hbuf]; rfl))

/-- A read that gets no further byte ends when `cfg_t_reply` ticks have passed (R92, R93). -/
theorem performs_elapse {s : State} {bytes : List Byte} (hst : s.st = 2#2) (hrst : s.rst = false) (hq : s.rxq = [])
    (htmr : s.tmr = 0) (hn : s.rxn = BitVec.ofNat 3 bytes.length) (hbuf : s.rxbuf.firstBytes s.rxn = bytes) :
    Performs (List.replicate s.cfgTReply .tick ++ [.timeout]) s (completeShort bytes s) := by
  have hle : s.tmr + s.cfgTReply ≤ s.cfgTReply := by omega
  have hdue : timeoutEnabled { s with tmr := s.tmr + s.cfgTReply } = true :=
    timeoutEnabled_iff.mpr ⟨hst, hq, Nat.le_add_left ..⟩
  exact (performs_ticks hst hrst hle).append
    (performs_timeout (s := { s with tmr := s.tmr + s.cfgTReply }) hrst hdue hn hbuf)

/-- Settles O33: the frame, then the bytes taken as they come, then the ticks by induction on their number, then
`TIMEOUT`. -/
theorem ackClassRequestsCompleteByTimeout : Obligations.AckClassRequestsCompleteByTimeout := by
  intro s a o bytes rest ts hready hack hlegal hreq hq hdepth hlen hturns
  obtain ⟨hrst, -⟩ := reqReady_iff.mp hready
  have hreply : Performs (deliver bytes) (awaiting a o rest s) _ :=
    performs_deliver rfl hrst hq (Nat.lt_of_lt_of_le (by decide) hdepth) (by simp [awaiting]; omega)
  obtain ⟨buf, htaken, hbuf⟩ := takeBytes_short (s := awaiting a o rest s) rfl hq hlen
  rw [htaken] at hreply
  have hend : Performs (List.replicate s.cfgTReply .tick ++ [.timeout]) _ _ :=
    performs_elapse (s := { awaiting a o rest s with rxbuf := buf, rxn := BitVec.ofNat 3 bytes.length })
      rfl hrst hq rfl rfl hbuf
  have hrun := (((performs_sendEvents_ackClass hready hack hlegal hreq).append hreply).append hend).runFor_eq
    (ts := ts) (by simpa using hturns)
  have hlength : ((sendEvents ++ deliver bytes) ++ (List.replicate s.cfgTReply Event.tick ++ [Event.timeout])).length =
      5 + 2 * bytes.length + s.cfgTReply + 1 := by
    simp only [List.length_append, deliver_length, List.length_replicate]
    rfl
  rw [hlength] at hrun
  have hpadding : bytes.getD 3 0x00#8 = 0x00#8 := List.getD_eq_default _ _ (by omega)
  have hbytes : Quad.ofBytes bytes =
      ⟨bytes.getD 0 0x00#8, bytes.getD 1 0x00#8, bytes.getD 2 0x00#8, 0x00#8⟩ := by rw [Quad.ofBytes, hpadding]
  exact ⟨_, hrun, rfl, rfl, rfl, rfl, hq, rfl, rfl, rfl, rfl, rfl, rspLen_toNat (by omega), hbytes⟩

/-! ### The wait for a reply is bounded -/

/-- Waiting for a reply with no agent's event to come: the block is left to its own events and the time base (R82). -/
structure LeftToWait (s : State) : Prop where
  st : s.st = 2#2
  rst : s.rst = false
  turns : s.turns = []

/-- How many events at most pass before the one that ends the wait: bytes to take and ticks to count. -/
def waitBound (s : State) : Nat := (3 - s.rxn.toNat) + (s.cfgTReply - s.tmr)

section
variable {s : State}

theorem ownEvent_rxTake (htake : rxTakeEnabled s = true) : ownEvent s = .rxTake := if_pos htake

theorem ownEvent_timeout (htake : rxTakeEnabled s = false) (hdue : timeoutEnabled s = true) :
    ownEvent s = .timeout := by
  simp [ownEvent, htake, hdue]

theorem ownEvent_tick (htake : rxTakeEnabled s = false) (hdue : timeoutEnabled s = false) : ownEvent s = .tick := by
  simp [ownEvent, htake, hdue]

/-- Left to itself the block runs its own event (log 3). -/
theorem LeftToWait.step_eq (h : LeftToWait s) : step s = runEvent (ownEvent s) s := by
  simp [step, h.turns]

/-- Each event the block is left to ends the wait or brings the end nearer. -/
theorem LeftToWait.step_nearer (h : LeftToWait s) :
    ∃ t, step s = .next t ∧ (t.st = 0#2 ∧ t.rspValid = true ∨ LeftToWait t ∧ waitBound t < waitBound s) := by
  have hlive : s.live := live_of_busy h.rst (.inr h.st)
  rw [h.step_eq]
  rcases hq : s.rxq with _ | ⟨v, rest⟩
  · have htake : rxTakeEnabled s = false := by simp [rxTakeEnabled, hq]
    cases hdue : timeoutEnabled s
    · have hlt : s.tmr < s.cfgTReply := by simpa [timeoutEnabled, h.st, hq] using hdue
      refine ⟨{ s with tmr := s.tmr + 1 }, ?_, .inr ⟨{ h with }, ?_⟩⟩
      · rw [ownEvent_tick htake hdue]
        exact runEvent_tick h.rst h.st hlt
      · simp only [waitBound]
        omega
    · refine ⟨timeout s, ?_, .inl ?_⟩
      · rw [ownEvent_timeout htake hdue]
        exact whenLive_live hlive
      · by_cases hn : s.rxn = 0#3
        · rw [timeout_none hdue hn]
          exact ⟨rfl, rfl⟩
        · rw [timeout_short hdue hn]
          exact ⟨rfl, rfl⟩
  · have htake : rxTakeEnabled s = true := rxTakeEnabled_iff.mpr ⟨h.st, by simp [hq]⟩
    refine ⟨takeByte v rest s, ?_, ?_⟩
    · rw [ownEvent_rxTake htake]
      exact runEvent_rxTake h.rst h.st hq
    · rcases takeByte_cases v rest s with ⟨hn, heq⟩ | ⟨-, heq⟩ <;> rw [heq]
      · refine .inr ⟨{ h with }, ?_⟩
        have hcount : (s.rxn + 1#3).toNat = s.rxn.toNat + 1 := by bv_omega
        simp only [waitBound, hcount]
        bv_omega
      · obtain ⟨k, c, a, o, -, hdone⟩ := decodeDone_completes [s.rxbuf.b0, s.rxbuf.b1, s.rxbuf.b2, v]
          { s with rxq := rest, rxbuf := s.rxbuf.set s.rxn v }
        exact .inl (by rw [hdone]; exact ⟨rfl, rfl⟩)

/-- The wait ends one event after its bound at the latest, by induction on the bound. -/
theorem LeftToWait.ends (h : LeftToWait s) :
    ∃ k t, k ≤ waitBound s + 1 ∧ runFor k s = .next t ∧ t.st = 0#2 ∧ t.rspValid = true := by
  induction hn : waitBound s using Nat.strong_induction_on generalizing s with
  | h n ih =>
    obtain ⟨t, hstep, hend | ⟨ht, hlt⟩⟩ := h.step_nearer
    · exact ⟨1, t, by omega, runFor_succ hstep, hend⟩
    · obtain ⟨k, u, hk, hrun, hend⟩ := ih _ (hn ▸ hlt) ht rfl
      exact ⟨k + 1, u, by omega, (runFor_succ hstep).trans hrun, hend⟩

end

/-- Settles O35: the bound of the wait is at most three bytes and `cfg_t_reply` ticks. -/
theorem theWaitForAReplyIsBounded : Obligations.TheWaitForAReplyIsBounded := by
  intro s hst hrst hturns
  obtain ⟨k, t, hk, hend⟩ := LeftToWait.ends ⟨hst, hrst, hturns⟩
  refine ⟨k, t, ?_, hend⟩
  unfold waitBound at hk
  omega

/-! ### How a request in flight ends -/

/-- How an event ends a request in flight, by the status it writes (R87, R90, R93). -/
inductive Ending (s t : State) : Prop where
  | sent : s.st = 1#2 → fireAndForget s.reqOp = true → t.rspStatus = 1#3 → Ending s t
  | replied : s.st = 2#2 → t.rspStatus = 2#3 ∨ t.rspStatus = 4#3 → t.rspLen = 4#3 → Ending s t
  | silent : s.st = 2#2 → s.rxq = [] → s.rxn = 0#3 → t.rspStatus = 3#3 → t.rspLen = 0#3 → Ending s t
  | short : s.st = 2#2 → s.rxn ≠ 0#3 → t.rspStatus = 4#3 →
      t.rspLen = BitVec.ofNat 3 (s.rxbuf.firstBytes s.rxn).length → Ending s t

section
variable {s t : State} {e : Event}

/-- Whatever event makes the response of a request in flight valid is one of the endings. -/
theorem Effect.ending (h : Effect s e t) (hst : s.st ≠ 0#2) (hv : s.rspValid = false) (hv' : t.rspValid = true) :
    Ending s t := by
  have hbusy : s.reqReady ≠ true := fun hready => hst (reqReady_iff.mp hready).2
  cases h with
  | none | count | drive => simp [hv] at hv'
  | accept _ _ _ _ hready => exact absurd hready hbusy
  | refuse _ _ _ _ hready => exact absurd hready hbusy
  | assert | release => simp at hv'
  | send _ htx =>
    rcases sendByte_cases s with ⟨-, heq⟩ | ⟨-, hf, heq⟩ | ⟨-, -, heq⟩ <;> rw [heq] at hv' ⊢
    · simp [hv] at hv'
    · exact .sent htx hf rfl
    · simp [hv] at hv'
  | arrive v => rcases rxArrive_cases v s with ⟨-, heq⟩ | ⟨-, heq⟩ <;> simp [heq, hv] at hv'
  | take v rest _ hrx =>
    rcases takeByte_cases v rest s with ⟨-, heq⟩ | ⟨-, heq⟩ <;> rw [heq] at hv' ⊢
    · simp [hv] at hv'
    · obtain ⟨k, c, a, o, hk, hdone⟩ := decodeDone_completes [s.rxbuf.b0, s.rxbuf.b1, s.rxbuf.b2, v]
        { s with rxq := rest, rxbuf := s.rxbuf.set s.rxn v }
      rw [hdone]
      exact .replied hrx hk rfl
  | noResponse _ hrx hq _ hn => exact .silent hrx hq hn rfl rfl
  | shortRead _ hrx _ _ hn => exact .short hrx hn rfl rfl

theorem step_ending (h : step s = .next t) (hst : s.st ≠ 0#2) (hv : s.rspValid = false) (hv' : t.rspValid = true) :
    Ending { s with turns := s.turns.tail } t :=
  (step_effect h).ending hst hv hv'

end

/-- Settles O38: of the endings only `sent` writes `OK_NOREPLY`, for a fire-and-forget opcode. -/
theorem ackClassNeverCompletesWithoutReply : Obligations.AckClassNeverCompletesWithoutReply := by
  intro s t hst hack _ hv hstep hv'
  have hbusy : s.st ≠ 0#2 := by rcases hst with hst | hst <;> simp [hst]
  have hends : t.rspStatus = 2#3 ∨ t.rspStatus = 3#3 ∨ t.rspStatus = 4#3 := by
    cases step_ending hstep hbusy hv hv' with
    | sent _ hf => simp [not_fireAndForget_of_le hack] at hf
    | replied _ hstatus => exact hstatus.imp_right .inr
    | silent _ _ _ hstatus => exact .inr (.inl hstatus)
    | short _ _ hstatus => exact .inr (.inr hstatus)
  refine ⟨?_, hends⟩
  rcases hends with h | h | h <;> simp [h]

/-- Settles O39: the clauses read off the endings; that `RX` holds only ack-class requests is the invariant's. -/
theorem outcomesFitWhatWasRead : Obligations.OutcomesFitWhatWasRead := by
  intro s t hinv hst hstep hv'
  have hack : s.st = 2#2 → 0x02#8 ≤ s.reqOp := fun hrx => (hinv.ackOnly hrx).1
  cases step_ending hstep hst (hinv.inFlight hst) hv' with
  | sent htx hf hstatus => simp [hstatus]
  | replied hrx hstatus hlen =>
    have hf := not_fireAndForget_of_le (hack hrx)
    refine ⟨fun h3 => ?_, fun _ => ⟨hrx, hack hrx, by simp [hlen]⟩, by simp [hf]⟩
    rcases hstatus with h | h <;> simp [h] at h3
  | silent hrx hq hn hstatus hlen =>
    have hf := not_fireAndForget_of_le (hack hrx)
    exact ⟨fun _ => ⟨hrx, hack hrx, hn, hq, hlen⟩, by simp [hstatus], by simp [hf]⟩
  | short hrx hn hstatus hlen =>
    have hf := not_fireAndForget_of_le (hack hrx)
    refine ⟨by simp [hstatus], fun _ => ⟨hrx, hack hrx, ?_⟩, by simp [hf]⟩
    have hpos : 1#3 ≤ s.rxn := by bv_omega
    simpa [hlen, Quad.firstBytes_length _ hinv.rxnRange] using hpos

/-! ### Who takes bytes from the queue -/

/-- The event left the bytes of the queue where they were, or took its head in `RX`. -/
inductive QueueMove (s t : State) : Prop where
  | kept (new : List Byte) : t.rxq = s.rxq ++ new → QueueMove s t
  | took (v : Byte) : s.st = 2#2 → s.rxq = v :: t.rxq →
      s.rxn < 3#3 ∧ t.st = 2#2 ∧ t.rxn = s.rxn + 1#3 ∨ 3#3 ≤ s.rxn ∧ t.st = 0#2 ∧ t.rspLen = 4#3 → QueueMove s t

theorem QueueMove.of_eq {s t : State} (h : t.rxq = s.rxq) : QueueMove s t := .kept [] (by simp [h])

/-- Moves of the reset line apart, only `RX_TAKE` takes a byte out of the queue (R89). -/
theorem Effect.queueMove {s t : State} {e : Event} (h : Effect s e t) (he : e.ofReset = false) : QueueMove s t := by
  cases h with
  | none | accept | refuse | count | noResponse | shortRead | drive => exact .of_eq rfl
  | assert | release => simp [Event.ofReset] at he
  | send =>
    rcases sendByte_cases s with ⟨-, heq⟩ | ⟨-, -, heq⟩ | ⟨-, -, heq⟩ <;> rw [heq] <;> exact .of_eq rfl
  | arrive v =>
    rcases rxArrive_cases v s with ⟨-, heq⟩ | ⟨-, heq⟩ <;> rw [heq]
    · exact .kept [v] rfl
    · exact .of_eq rfl
  | take v rest _ hrx hq =>
    rcases takeByte_cases v rest s with ⟨hn, heq⟩ | ⟨hn, heq⟩ <;> rw [heq]
    · exact .took v hrx hq (.inl ⟨hn, hrx, rfl⟩)
    · obtain ⟨k, c, a, o, -, hdone⟩ := decodeDone_completes [s.rxbuf.b0, s.rxbuf.b1, s.rxbuf.b2, v]
        { s with rxq := rest, rxbuf := s.rxbuf.set s.rxn v }
      rw [hdone]
      exact .took v hrx hq (.inr ⟨hn, rfl, rfl⟩)

/-- A fire-and-forget request leaves `TX` to `IDLE` only (R87). -/
theorem Effect.st_of_fireAndForget {s t : State} {e : Event} (h : Effect s e t) (he : e.ofReset = false)
    (hst : s.st = 1#2) (hf : fireAndForget s.reqOp = true) : t.st = 1#2 ∨ t.st = 0#2 := by
  cases h with
  | none | drive => exact .inl hst
  | accept => exact .inl rfl
  | refuse | noResponse | shortRead => exact .inr rfl
  | assert | release => simp [Event.ofReset] at he
  | send =>
    rcases sendByte_cases s with ⟨-, heq⟩ | ⟨-, -, heq⟩ | ⟨-, hack, -⟩
    · exact .inl (by rw [heq]; exact hst)
    · exact .inr (by rw [heq]; rfl)
    · simp [hf] at hack
  | arrive v => rcases rxArrive_cases v s with ⟨-, heq⟩ | ⟨-, heq⟩ <;> exact .inl (by rw [heq]; exact hst)
  | take _ _ _ hrx | count _ hrx => exact absurd (hst.symm.trans hrx) (by decide)

/-- Settles O37: the queue by `QueueMove`, whose fourth byte the invariant makes `rxn = 3`. -/
theorem onlyRxTakesBytes : Obligations.OnlyRxTakesBytes := by
  intro s t hinv hstep he
  have heff := step_effect hstep
  have hmove := heff.queueMove he
  refine ⟨fun hst => ?notRx, fun hst hf => heff.st_of_fireAndForget he hst hf,
    fun hst => not_fireAndForget_of_le (hinv.ackOnly hst).1, fun hst => ?inRx⟩
  case notRx =>
    cases hmove with
    | kept new hq => exact ⟨new, hq⟩
    | took v hrx => exact absurd hrx hst
  case inRx =>
    cases hmove with
    | kept new hq => exact .inl ⟨new, hq⟩
    | took v _ hq hcount =>
      refine .inr ⟨⟨v, hq⟩, ?_⟩
      rcases hcount with ⟨-, ht, hn⟩ | ⟨hn, ht, hlen⟩
      · exact .inl ⟨ht, hn⟩
      · exact .inr ⟨BitVec.le_antisymm hinv.rxnRange hn, ht, hlen⟩

/-! ### The record of bytes sent is not read

A step takes a state with more bytes in front of its record to the same next state with those bytes in front, so it only
adds to the record. -/

/-- The state with `record` in front of the bytes sent. -/
def afterRecord (record : List Byte) (s : State) : State := { s with txStream := record ++ s.txStream }

/-- A next state seen through a view is the view of a next state. -/
theorem next_of_mapNext {view : State → State} {x : Host.Outcome State Fault Refusal} {t : State}
    (h : mapNext view x = .next t) : ∃ u, x = .next u ∧ view u = t := by
  cases x with
  | next u => exact ⟨u, rfl, by simpa [mapNext] using h⟩
  | fault r => simp [mapNext] at h
  | refused r => simp [mapNext] at h

/-- An update that passes an older record through. -/
def PassesRecord (f : State → State) : Prop := ∀ record s, f (afterRecord record s) = afterRecord record (f s)

section
variable (record : List Byte) (s : State)

@[simp] theorem afterRecord_st : (afterRecord record s).st = s.st := rfl
@[simp] theorem afterRecord_rxq : (afterRecord record s).rxq = s.rxq := rfl
@[simp] theorem afterRecord_requests : (afterRecord record s).requests = s.requests := rfl

theorem whenLive_afterRecord {f : State → State} (hf : PassesRecord f) :
    whenLive f (afterRecord record s) = mapNext (afterRecord record) (whenLive f s) := by
  simp only [whenLive, apply_ite (mapNext (afterRecord record)), hf record s]
  rfl

theorem request_afterRecord (a o : Byte) :
    request a o (afterRecord record s) = mapNext (afterRecord record) (request a o s) := by
  have htake : takeRequest a o (afterRecord record s) = afterRecord record (takeRequest a o s) := by
    unfold takeRequest
    cases encodeRaw a o <;> rfl
  simp only [request, apply_ite (mapNext (afterRecord record)), htake]
  rfl

theorem presentRequest_afterRecord :
    presentRequest (afterRecord record s) = mapNext (afterRecord record) (presentRequest s) := by
  unfold presentRequest
  rw [afterRecord_requests]
  split
  · rename_i r rest _
    simp only [runRequest_eq]
    exact request_afterRecord record { s with requests := rest } r.addr r.op
  · exact whenLive_afterRecord record s fun _ _ => rfl

theorem txAccept_passesRecord : PassesRecord txAccept := by
  intro record s
  have hsend : sendByte (afterRecord record s) = afterRecord record (sendByte s) := by
    rcases sendByte_cases s with ⟨hi, heq⟩ | ⟨hi, hf, heq⟩ | ⟨hi, hf, heq⟩ <;> rw [heq]
    · rw [sendByte_counts (by exact hi)]
      simp [afterRecord, State.txData]
    · rw [sendByte_last (by exact hi), frameSent_fireAndForget (by exact hf)]
      simp [afterRecord, State.txData, complete]
    · rw [sendByte_last (by exact hi), frameSent_ackClass (by exact hf)]
      simp [afterRecord, State.txData]
  simp only [txAccept, apply_ite (afterRecord record), hsend]
  rfl

theorem rxArrive_passesRecord (v : Byte) : PassesRecord (rxArrive v) := by
  intro record s
  simp only [rxArrive, apply_ite (afterRecord record)]
  rfl

theorem decodeDone_passesRecord (bytes : List Byte) : PassesRecord (decodeDone bytes) := by
  intro record s
  unfold decodeDone
  cases decodeBytes bytes <;> rfl

theorem takeByte_passesRecord (v : Byte) (rest : List Byte) : PassesRecord (takeByte v rest) := by
  intro record s
  simp only [takeByte, apply_ite (afterRecord record), ← decodeDone_passesRecord _ record]
  rfl

theorem rxTake_passesRecord : PassesRecord rxTake := by
  intro record s
  unfold rxTake
  rw [afterRecord_st, afterRecord_rxq]
  split
  · split
    · exact takeByte_passesRecord _ _ record s
    · rfl
  · rfl

theorem tick_passesRecord : PassesRecord tick := by
  intro record s
  simp only [tick, apply_ite (afterRecord record)]
  rfl

theorem timeout_passesRecord : PassesRecord timeout := by
  intro record s
  simp only [timeout, apply_ite (afterRecord record)]
  rfl

theorem releaseReset_passesRecord : PassesRecord releaseReset := by
  intro record s
  simp only [releaseReset, apply_ite (afterRecord record)]
  rfl

theorem runEvent_afterRecord (e : Event) :
    runEvent e (afterRecord record s) = mapNext (afterRecord record) (runEvent e s) := by
  cases e with
  | req => exact presentRequest_afterRecord record s
  | txAccept => exact whenLive_afterRecord record s txAccept_passesRecord
  | rxArrive v => exact whenLive_afterRecord record s (rxArrive_passesRecord v)
  | rxTake => exact whenLive_afterRecord record s rxTake_passesRecord
  | tick => exact whenLive_afterRecord record s tick_passesRecord
  | timeout => exact whenLive_afterRecord record s timeout_passesRecord
  | assertReset => rfl
  | releaseReset => exact congrArg Host.Outcome.next (releaseReset_passesRecord record s)
  | driveCfg v =>
    simp only [runEvent, driveCfg, apply_ite (mapNext (afterRecord record))]
    rfl
  | readStatus =>
    simp only [runEvent, readStatus, apply_ite (mapNext (afterRecord record))]
    rfl

theorem step_afterRecord : step (afterRecord record s) = mapNext (afterRecord record) (step s) := by
  rw [step_eq, step_eq]
  exact runEvent_afterRecord record { s with turns := s.turns.tail } (nextEvent s)

end

/-- Settles O49: the step from an empty record shows the bytes sent, and any other record goes in front of them. -/
theorem theRecordIsNotRead : Obligations.TheRecordIsNotRead := by
  intro s t record hstep
  have hpasses : ∀ r, step { s with txStream := r } = mapNext (afterRecord r) (step { s with txStream := [] }) := by
    intro r
    rw [← step_afterRecord]
    simp [afterRecord]
  obtain ⟨u, hu, rfl⟩ := next_of_mapNext ((hpasses s.txStream).symm.trans hstep)
  refine ⟨u.txStream, rfl, ?_⟩
  rw [hpasses, hu]
  rfl

end Sys2Proof.Machine

namespace Sys2Proof.Machine

/-! ### The reserved codes of `rsp_status` -/

theorem readStatus_reserved {s : State} (h : s.rspStatus = 6#3 ∨ s.rspStatus = 7#3) :
    readStatus s = .fault .reservedStatus := by
  rcases h with h | h <;> simp [readStatus, statusReserved, h]

/-- An event leaves `rsp_status` alone, or writes one of the codes of R109: reset puts `NONE` there and a completion one of
the other five. -/
theorem Effect.rspStatus_legal {s t : State} {e : Event} (heff : Effect s e t) (h : s.rspStatus ≤ 5#3) :
    t.rspStatus ≤ 5#3 := by
  cases heff with
  | none | accept | count | drive => exact h
  | refuse | noResponse | shortRead | assert | release => simp
  | send =>
    rcases sendByte_cases s with ⟨-, heq⟩ | ⟨-, -, heq⟩ | ⟨-, -, heq⟩ <;> rw [heq]
    · exact h
    · simp
    · exact h
  | arrive v => rcases rxArrive_cases v s with ⟨-, heq⟩ | ⟨-, heq⟩ <;> rw [heq] <;> exact h
  | take v rest =>
    rcases takeByte_cases v rest s with ⟨-, heq⟩ | ⟨-, heq⟩ <;> rw [heq]
    · exact h
    · obtain ⟨k, c, a, o, hk, hdone⟩ := decodeDone_completes [s.rxbuf.b0, s.rxbuf.b1, s.rxbuf.b2, v]
        { s with rxq := rest, rxbuf := s.rxbuf.set s.rxn v }
      rw [hdone, complete_rspStatus]
      rcases hk with rfl | rfl <;> decide

/-- Settles O45: a host read asks `readStatus` alone, and every effect an event can have keeps the code legal. -/
theorem reservedStatusFaults : Obligations.ReservedStatusFaults := by
  refine ⟨fun s ts hturns => ?read, fun s t hlegal hstep => ?never⟩
  case read =>
    rw [step_turn hturns]
    exact ⟨fun hreserved => readStatus_reserved hreserved, fun hlegal => readStatus_legal hlegal⟩
  case never => exact (step_effect hstep).rspStatus_legal hlegal

end Sys2Proof.Machine

namespace Sys2Proof

/-! ### The bytes read so far -/

/-- The bytes read so far do not depend on what stands behind them in the buffer (R24). -/
theorem Quad.firstBytes_ofBytes_firstBytes (q : Quad) (n : BitVec 3) :
    (Quad.ofBytes (q.firstBytes n)).firstBytes n = q.firstBytes n := by
  unfold Quad.firstBytes
  match n.toNat with
  | 0 | 1 | 2 | 3 => rfl
  | k + 4 => simp [Quad.toList, Quad.ofBytes]

/-- A byte put behind the bytes read so far leaves them as they are. -/
theorem Quad.firstBytes_set (q : Quad) (n : BitVec 3) (v : Byte) : (q.set n v).firstBytes n = q.firstBytes n := by
  obtain ⟨i⟩ := n
  fin_cases i <;> rfl

/-- Taking a byte appends it to the bytes read so far (R89). -/
theorem Quad.firstBytes_set_succ (q : Quad) {n : BitVec 3} (hn : n < 3#3) (v : Byte) :
    (q.set n v).firstBytes (n + 1#3) = q.firstBytes n ++ [v] := by
  rcases index_cases (BitVec.le_of_lt hn) with rfl | rfl | rfl | rfl
  exacts [rfl, rfl, rfl, absurd hn (by decide)]

/-- Once three bytes are read, the first three are those of the buffer (R89). -/
theorem Quad.take_three_firstBytes (q : Quad) {n : BitVec 3} (hn : 3#3 ≤ n) :
    (q.firstBytes n).take 3 = [q.b0, q.b1, q.b2] := by
  have hle : 3 ≤ n.toNat := hn
  rw [Quad.firstBytes, List.take_take, Nat.min_eq_left hle]
  rfl

end Sys2Proof

namespace Sys2Proof.Machine

/-- The bytes handed to `DECODE_DONE` are the first three of those read so far, and the one taken (R89). -/
theorem takeByte_decodes {s : State} (hn : 3#3 ≤ s.rxn) (v : Byte) (rest : List Byte) :
    takeByte v rest s = decodeDone ((s.rxbuf.firstBytes s.rxn).take 3 ++ [v])
      { s with rxq := rest, rxbuf := s.rxbuf.set s.rxn v } := by
  rw [Quad.take_three_firstBytes _ hn]
  exact if_neg (BitVec.not_lt.mpr hn)

/-! ### Stale registers are not read

Two states that look alike without their stale registers show the same values to every guard and to every right-hand side of
an event: outside its phase no register is read, and in it the register is part of the view. So an event takes alike states
to alike answers. -/

/-- The states agree but for the registers that are stale in their phase (R130). -/
def Alike (s s' : State) : Prop := withoutStale s = withoutStale s'

section
variable {s s' : State}

/-! #### What alike states share -/

/-- Whatever is read off the view is the same in alike states. -/
theorem Alike.same {α : Type} (h : Alike s s') (f : State → α) : f (withoutStale s) = f (withoutStale s') :=
  congrArg f h

theorem Alike.st (h : Alike s s') : s.st = s'.st := h.same State.st
theorem Alike.rst (h : Alike s s') : s.rst = s'.rst := h.same State.rst
theorem Alike.rxq (h : Alike s s') : s.rxq = s'.rxq := h.same State.rxq
theorem Alike.rspStatus (h : Alike s s') : s.rspStatus = s'.rspStatus := h.same State.rspStatus
theorem Alike.cfgTReply (h : Alike s s') : s.cfgTReply = s'.cfgTReply := h.same State.cfgTReply
theorem Alike.requests (h : Alike s s') : s.requests = s'.requests := h.same State.requests
theorem Alike.turns (h : Alike s s') : s.turns = s'.turns := h.same State.turns
theorem Alike.txStream (h : Alike s s') : s.txStream = s'.txStream := h.same State.txStream

theorem Alike.reqOp (h : Alike s s') (hst : s.st = 1#2) : s.reqOp = s'.reqOp := by
  simpa [withoutStale, hst, ← h.st] using h.same State.reqOp

theorem Alike.txbuf (h : Alike s s') (hst : s.st = 1#2) : s.txbuf = s'.txbuf := by
  simpa [withoutStale, hst, ← h.st] using h.same State.txbuf

theorem Alike.txi (h : Alike s s') (hst : s.st = 1#2) : s.txi = s'.txi := by
  simpa [withoutStale, hst, ← h.st] using h.same State.txi

theorem Alike.txData (h : Alike s s') (hst : s.st = 1#2) : s.txData = s'.txData := by
  rw [State.txData, State.txData, h.txbuf hst, h.txi hst]

theorem Alike.rxn (h : Alike s s') (hst : s.st = 2#2) : s.rxn = s'.rxn := by
  simpa [withoutStale, hst, ← h.st] using h.same State.rxn

theorem Alike.tmr (h : Alike s s') (hst : s.st = 2#2) : s.tmr = s'.tmr := by
  simpa [withoutStale, hst, ← h.st] using h.same State.tmr

/-- In `RX` alike states have read the same bytes, though what stands behind those in the buffers may differ (R24). -/
theorem Alike.firstBytes (h : Alike s s') (hst : s.st = 2#2) :
    s.rxbuf.firstBytes s.rxn = s'.rxbuf.firstBytes s'.rxn := by
  have hbuf : Quad.ofBytes (s.rxbuf.firstBytes s.rxn) = Quad.ofBytes (s'.rxbuf.firstBytes s'.rxn) := by
    simpa [withoutStale, hst, ← h.st] using h.same State.rxbuf
  rw [← Quad.firstBytes_ofBytes_firstBytes, hbuf, h.rxn hst, Quad.firstBytes_ofBytes_firstBytes]

theorem Alike.reqReady (h : Alike s s') : s.reqReady = s'.reqReady := by
  rw [State.reqReady, State.reqReady, h.rst, h.st]

theorem Alike.rxTakeEnabled (h : Alike s s') : rxTakeEnabled s = rxTakeEnabled s' := by
  simp only [Machine.rxTakeEnabled, h.st, h.rxq]

/-- The guard of `TIMEOUT` reads the timer in `RX` only (R93). -/
theorem Alike.timeoutEnabled (h : Alike s s') : timeoutEnabled s = timeoutEnabled s' := by
  by_cases hst : s.st = 2#2
  · simp only [Machine.timeoutEnabled, h.st, h.rxq, h.tmr hst, h.cfgTReply]
  · simp [Machine.timeoutEnabled, hst, ← h.st]

theorem Alike.nextEvent (h : Alike s s') : nextEvent s = nextEvent s' := by
  simp only [Machine.nextEvent, ownEvent, h.turns, h.rxTakeEnabled, h.timeoutEnabled]

/-! #### Updates that keep states alike

The view of the updated state is a function of the view of the state; an update that ends a phase makes its registers
stale. -/

/-- Updates whose view is the same function of the view of the state keep states alike. -/
theorem Alike.update (h : Alike s s') {t t' : State} (f : State → State) (ht : withoutStale t = f (withoutStale s))
    (ht' : withoutStale t' = f (withoutStale s')) : Alike t t' :=
  ht.trans ((h.same f).trans ht'.symm)

theorem Alike.withTurns (h : Alike s s') (es : List Event) : Alike { s with turns := es } { s' with turns := es } :=
  h.update (fun u : State => { u with turns := es }) rfl rfl

theorem Alike.withRequests (h : Alike s s') (rs : List Request) :
    Alike { s with requests := rs } { s' with requests := rs } :=
  h.update (fun u : State => { u with requests := rs }) rfl rfl

theorem Alike.withCfg (h : Alike s s') (v : Nat) : Alike { s with cfgTReply := v } { s' with cfgTReply := v } :=
  h.update (fun u : State => { u with cfgTReply := v }) rfl rfl

theorem Alike.withTmr (h : Alike s s') (v : Nat) : Alike { s with tmr := v } { s' with tmr := v } :=
  h.update (fun u : State => { u with tmr := if u.st = stRx then v else 0 }) rfl rfl

theorem Alike.withTxStream (h : Alike s s') (sent : List Byte) :
    Alike { s with txStream := sent } { s' with txStream := sent } :=
  h.update (fun u : State => { u with txStream := sent }) rfl rfl

theorem Alike.withTxi (h : Alike s s') (i : BitVec 3) : Alike { s with txi := i } { s' with txi := i } :=
  h.update (fun u : State => { u with txi := if u.st = stTx then i else 0#3 }) rfl rfl

/-- In a buffer only the bytes read so far count (R24). -/
theorem Alike.withRead (h : Alike s s') (rest : List Byte) {n : BitVec 3} {q q' : Quad}
    (hq : q.firstBytes n = q'.firstBytes n) :
    Alike { s with rxq := rest, rxbuf := q, rxn := n } { s' with rxq := rest, rxbuf := q', rxn := n } := by
  refine h.update (fun u => { u with
    rxq := rest
    rxn := if u.st = stRx then n else 0#3
    rxbuf := if u.st = stRx then Quad.ofBytes (q.firstBytes n) else ⟨0x00#8, 0x00#8, 0x00#8, 0x00#8⟩ }) rfl ?_
  rw [hq]
  rfl

/-- A completion leaves the session with nothing but stale registers (R83). -/
theorem Alike.complete (h : Alike s s') (k : BitVec 3) (c : BitVec 2) (a o : Byte) (bs : List Byte) :
    Alike (complete k c a o bs s) (complete k c a o bs s') :=
  h.update (fun u => withoutStale (Machine.complete k c a o bs u)) rfl rfl

theorem Alike.acceptRequest (h : Alike s s') (a o : Byte) (q : Quad) :
    Alike (acceptRequest a o q s) (acceptRequest a o q s') :=
  h.update (fun u => withoutStale (Machine.acceptRequest a o q u)) rfl rfl

theorem Alike.holdRequest (h : Alike s s') (a o : Byte) : Alike (holdRequest a o s) (holdRequest a o s') :=
  h.update (Machine.holdRequest a o) rfl rfl

/-- `RX` starts with its own registers at 0 and those of `TX` stale (R87). -/
theorem Alike.enterRx (h : Alike s s') :
    Alike { s with st := stRx, txi := 0#3, rxn := 0#3, tmr := 0 } { s' with st := stRx, txi := 0#3, rxn := 0#3, tmr := 0 } :=
  h.update (fun u => withoutStale { u with st := stRx, txi := 0#3, rxn := 0#3, tmr := 0 }) rfl rfl

theorem Alike.assertReset (h : Alike s s') : Alike (assertReset s) (assertReset s') :=
  h.update Machine.assertReset rfl rfl

/-! #### The events -/

theorem Alike.releaseReset (h : Alike s s') : Alike (releaseReset s) (releaseReset s') := by
  unfold Machine.releaseReset
  rw [← h.rst]
  split
  · exact h.update (fun u => { resetRegisters u with rst := false }) rfl rfl
  · exact h

theorem Alike.takeRequest (h : Alike s s') (a o : Byte) : Alike (takeRequest a o s) (takeRequest a o s') := by
  unfold Machine.takeRequest
  split
  · exact h.acceptRequest ..
  · exact h.complete ..

/-- `TX_ACCEPT` reads the counter, the frame and, at its end, the opcode: none is stale in `TX` (R87). -/
theorem Alike.sendByte (h : Alike s s') (hst : s.st = 1#2) : Alike (sendByte s) (sendByte s') := by
  have hi := h.txi hst
  have hop := h.reqOp hst
  have hsent : s.txStream ++ [s.txData] = s'.txStream ++ [s'.txData] := by rw [h.txStream, h.txData hst]
  have hrec := h.withTxStream (s.txStream ++ [s.txData])
  by_cases hlt : s.txi < 3#3
  · rw [sendByte_counts hlt, sendByte_counts (hi ▸ hlt), ← hi, ← hsent]
    exact hrec.withTxi _
  · rw [sendByte_last hlt, sendByte_last (hi ▸ hlt), ← hsent]
    unfold frameSent
    rw [← hop]
    split
    · exact hrec.complete ..
    · exact hrec.enterRx

theorem Alike.txAccept (h : Alike s s') : Alike (txAccept s) (txAccept s') := by
  unfold Machine.txAccept
  rw [← h.st]
  split
  · exact h.sendByte ‹_›
  · exact h

theorem Alike.rxArrive (h : Alike s s') (v : Byte) : Alike (rxArrive v s) (rxArrive v s') := by
  refine h.update (Machine.rxArrive v) ?_ ?_ <;>
  · simp only [Machine.rxArrive, apply_ite withoutStale]
    rfl

theorem Alike.decodeDone (h : Alike s s') (bytes : List Byte) : Alike (decodeDone bytes s) (decodeDone bytes s') := by
  unfold Machine.decodeDone
  split
  · exact h.complete ..
  · exact h.complete ..

/-- `RX_TAKE` reads the counter, and at the fourth byte the three before it: the bytes read so far (R89). -/
theorem Alike.takeByte (h : Alike s s') (hst : s.st = 2#2) (v : Byte) (rest : List Byte) :
    Alike (takeByte v rest s) (takeByte v rest s') := by
  have hn := h.rxn hst
  have hread := h.firstBytes hst
  rw [← hn] at hread
  by_cases hlt : s.rxn < 3#3
  · rw [takeByte_counts hlt, takeByte_counts (hn ▸ hlt), ← hn]
    refine h.withRead rest ?_
    rw [Quad.firstBytes_set_succ _ hlt, Quad.firstBytes_set_succ _ hlt, hread]
  · have hge : 3#3 ≤ s.rxn := BitVec.not_lt.mp hlt
    rw [takeByte_decodes hge, takeByte_decodes (hn ▸ hge), ← hn, hread]
    refine Alike.decodeDone ?_ _
    have hbuf : (s.rxbuf.set s.rxn v).firstBytes s.rxn = (s'.rxbuf.set s.rxn v).firstBytes s.rxn := by
      rw [Quad.firstBytes_set, Quad.firstBytes_set, hread]
    have htaken := h.withRead rest hbuf
    rwa [hn] at htaken ⊢

theorem Alike.rxTake (h : Alike s s') : Alike (rxTake s) (rxTake s') := by
  unfold Machine.rxTake
  rw [← h.st, ← h.rxq]
  split
  · split
    · exact h.takeByte ‹_› ..
    · exact h
  · exact h

theorem Alike.tick (h : Alike s s') : Alike (tick s) (tick s') := by
  by_cases hst : s.st = 2#2
  · rcases Nat.lt_or_ge s.tmr s.cfgTReply with hlt | hge
    · rw [tick_counts hst hlt, tick_counts (h.st ▸ hst) (h.tmr hst ▸ h.cfgTReply ▸ hlt), ← h.tmr hst]
      exact h.withTmr _
    · rw [tick_disabled (.inr hge), tick_disabled (.inr (h.tmr hst ▸ h.cfgTReply ▸ hge))]
      exact h
  · rw [tick_disabled (.inl hst), tick_disabled (.inl (h.st ▸ hst))]
    exact h

theorem Alike.timeout (h : Alike s s') : Alike (timeout s) (timeout s') := by
  unfold Machine.timeout
  rw [← h.timeoutEnabled]
  split
  · rename_i hdue
    obtain ⟨hst, -, -⟩ := timeoutEnabled_iff.mp hdue
    rw [← h.firstBytes hst, ← h.rxn hst]
    split
    · exact h.complete ..
    · exact h.complete ..
  · exact h

/-! #### The step -/

/-- The answers are the same stop, or alike next states. -/
def AnswersAlike (x x' : Host.Outcome State Fault Refusal) : Prop :=
  mapNext withoutStale x = mapNext withoutStale x'

theorem Alike.answers (h : Alike s s') : AnswersAlike (.next s) (.next s') := congrArg Host.Outcome.next h

theorem Alike.whenLive (h : Alike s s') {f : State → State} (hf : Alike (f s) (f s')) :
    AnswersAlike (whenLive f s) (whenLive f s') := by
  unfold Machine.whenLive
  rw [← h.rst, ← h.st]
  split
  · exact h.answers
  · split
    · rfl
    · exact hf.answers

theorem Alike.request (h : Alike s s') (a o : Byte) : AnswersAlike (request a o s) (request a o s') := by
  unfold Machine.request
  rw [← h.reqReady, ← h.rst, ← h.st]
  split
  · exact (h.takeRequest a o).answers
  · split
    · rfl
    · exact (h.holdRequest a o).answers

theorem Alike.presentRequest (h : Alike s s') : AnswersAlike (presentRequest s) (presentRequest s') := by
  unfold Machine.presentRequest
  rw [← h.requests]
  split
  · simp only [runRequest_eq]
    exact (h.withRequests _).request ..
  · exact h.whenLive h

theorem Alike.driveCfg (h : Alike s s') (v : Nat) : AnswersAlike (driveCfg v s) (driveCfg v s') := by
  cases hrst : s.rst
  · rw [driveCfg_outOfReset v hrst, driveCfg_outOfReset v (h.rst ▸ hrst)]
    rfl
  · rw [driveCfg_inReset v hrst, driveCfg_inReset v (h.rst ▸ hrst)]
    exact (h.withCfg v).answers

theorem Alike.readStatus (h : Alike s s') : AnswersAlike (readStatus s) (readStatus s') := by
  unfold Machine.readStatus
  rw [← h.rspStatus]
  split
  · rfl
  · exact h.answers

/-- Every event answers alike states alike. -/
theorem Alike.runEvent (h : Alike s s') (e : Event) : AnswersAlike (runEvent e s) (runEvent e s') := by
  cases e with
  | req => exact h.presentRequest
  | txAccept => exact h.whenLive h.txAccept
  | rxArrive v => exact h.whenLive (h.rxArrive v)
  | rxTake => exact h.whenLive h.rxTake
  | tick => exact h.whenLive h.tick
  | timeout => exact h.whenLive h.timeout
  | assertReset => exact h.assertReset.answers
  | releaseReset => exact h.releaseReset.answers
  | driveCfg v => exact h.driveCfg v
  | readStatus => exact h.readStatus

/-- Alike states perform the same event next, and it answers them alike. -/
theorem Alike.step (h : Alike s s') : AnswersAlike (step s) (step s') := by
  rw [step_eq, step_eq, ← h.nextEvent, ← h.turns]
  exact (h.withTurns s.turns.tail).runEvent (Machine.nextEvent s)

end

/-- Settles O51: what a step reads of a state is in its view without the stale registers, and what it writes adds only stale
registers or values read from the view. -/
theorem staleRegistersAreNotRead : Obligations.StaleRegistersAreNotRead := by
  intro s s' t hview hstep
  have halike : Alike s s' := hview
  have hsame : AnswersAlike (step s') (.next t) := hstep ▸ halike.step.symm
  obtain ⟨t', hstep', ht⟩ := mapNext_eq_next hsame
  exact ⟨t', hstep', ht.symm⟩

/-! ### Bytes queued before the request -/

section
variable {s : State}

/-- Left to itself with a byte in the queue, the block takes it (R82, R89). -/
theorem LeftToWait.runFor_take (h : LeftToWait s) {v : Byte} {rest : List Byte} (hq : s.rxq = v :: rest) (k : Nat) :
    runFor (k + 1) s = runFor k (takeByte v rest s) := by
  have htake : rxTakeEnabled s = true := rxTakeEnabled_iff.mpr ⟨h.st, by simp [hq]⟩
  have hstep : step s = .next (takeByte v rest s) := by
    rw [h.step_eq, ownEvent_rxTake htake, runEvent_rxTake h.rst h.st hq]
  exact runFor_succ hstep

/-- Left to itself at the start of a read, the block takes the four bytes at the head of the queue and decodes them; those
behind them stay queued (R89, R90). -/
theorem LeftToWait.runFor_takes_four (h : LeftToWait s) (hn : s.rxn = 0#3) {b0 b1 b2 b3 : Byte} {more : List Byte}
    (hq : s.rxq = b0 :: b1 :: b2 :: b3 :: more) :
    runFor 4 s = .next (decodeDone [b0, b1, b2, b3] { s with rxq := more, rxbuf := ⟨b0, b1, b2, b3⟩, rxn := 3#3 }) := by
  obtain ⟨hst, hrst, hturns⟩ := h
  obtain ⟨⟩ := s
  simp only at hn hq hst hrst hturns
  subst hn hq hst hrst hturns
  rw [LeftToWait.runFor_take ⟨rfl, rfl, rfl⟩ rfl, LeftToWait.runFor_take ⟨rfl, rfl, rfl⟩ rfl,
    LeftToWait.runFor_take ⟨rfl, rfl, rfl⟩ rfl, LeftToWait.runFor_take ⟨rfl, rfl, rfl⟩ rfl]
  rfl

end

/-- Settles O34: `REQ` and four `TX_ACCEPT` events leave the queue alone and end in `RX`, where the block takes the four
bytes at its head by itself. -/
theorem queuedBytesAreTheNextReply : Obligations.QueuedBytesAreTheNextReply := by
  intro s a o b0 b1 b2 b3 more rest hready hack hlegal hreq hq hturns
  obtain ⟨hrst, -⟩ := reqReady_iff.mp hready
  have hsend : runFor 5 s = .next { awaiting a o rest s with turns := [] } :=
    (performs_sendEvents_ackClass hready hack hlegal hreq).runFor_eq (by simpa using hturns)
  have hwait : LeftToWait { awaiting a o rest s with turns := [] } := ⟨rfl, hrst, rfl⟩
  have hrun := (runFor_add (k := 4) hsend).trans (hwait.runFor_takes_four rfl hq)
  refine ⟨_, hrun, ?_⟩
  rcases decodeDone_cases [b0, b1, b2, b3]
    { awaiting a o rest s with turns := [], rxq := more, rxbuf := ⟨b0, b1, b2, b3⟩, rxn := 3#3 } with
    ⟨a', o', hd, heq⟩ | ⟨c, hd, heq⟩ <;> rw [heq, hd]
  · refine ⟨rfl, rfl, rfl, rfl, rfl, ?_, nofun⟩
    rintro _ _ ⟨⟩
    exact ⟨rfl, rfl, rfl⟩
  · refine ⟨rfl, rfl, rfl, rfl, rfl, nofun, ?_⟩
    rintro _ ⟨⟩
    exact ⟨rfl, rfl⟩

/-! ### In reset -/

section
variable {s : State}

theorem whenLive_inReset (f : State → State) (hrst : s.rst = true) : whenLive f s = .next s := if_pos hrst

/-- A request presented in reset stays on the port (R86, R129). -/
theorem presentRequest_inReset (hrst : s.rst = true) : presentRequest s = .next s := by
  unfold presentRequest
  split
  · rename_i r rest hreq
    have hheld : request r.addr r.op { s with requests := rest } =
        .next (holdRequest r.addr r.op { s with requests := rest }) := by
      simp [request, State.reqReady, hrst]
    rw [runRequest_eq, hheld]
    simp only [holdRequest, ← hreq]
  · exact whenLive_inReset _ hrst

/-- In reset no event of the session happens (R129). -/
theorem runEvent_inReset {e : Event} (he : e.ofSession = true) (hrst : s.rst = true) : runEvent e s = .next s := by
  cases e with
  | req => exact presentRequest_inReset hrst
  | txAccept | rxArrive | rxTake | tick | timeout => exact whenLive_inReset _ hrst
  | assertReset | releaseReset | driveCfg | readStatus => simp [Event.ofSession] at he

theorem releaseReset_inReset (hrst : s.rst = true) : releaseReset s = { resetRegisters s with rst := false } :=
  if_pos hrst

end

/-- Settles O46: reset puts every register at its reset value when the line rises and when it falls, and between the two the
guard every event shares turns the session's events away. -/
theorem resetAbandonsAndHolds : Obligations.ResetAbandonsAndHolds := by
  refine ⟨fun s ts hturns => ?rises, fun s hrst => ?outputs, fun s e ts hrst hturns he => ?held,
    fun s ts hrst hturns => ?falls⟩
  case rises => exact ⟨_, step_turn hturns, rfl, rfl, fun _ => rfl⟩
  case outputs => simp [State.reqReady, State.txValid, hrst]
  case held =>
    rw [step_turn hturns]
    exact runEvent_inReset he hrst
  case falls =>
    refine ⟨{ resetRegisters { s with turns := ts } with rst := false }, ?_, rfl, rfl⟩
    rw [step_turn hturns]
    exact congrArg _ (releaseReset_inReset (s := { s with turns := ts }) hrst)

/-- Settles O41: right after reset every register is at its reset value, and `RXQ_DEPTH` exceeds 4 by a free value (R8). -/
theorem resetMeetsTheInvariant : Obligations.ResetMeetsTheInvariant :=
  inv_resetRegisters (s := State.reset) (Nat.le_add_left 4 Config.rxqDepthOverFour) false

/-- Settles O47: each value is the one `State.reset` writes out, and out of reset in `IDLE` the block is ready. -/
theorem resetValues : Obligations.ResetValues := by
  unfold Obligations.ResetValues
  decide

end Sys2Proof.Machine
